-- ==== Sys2Proof/Word.lean ====
section
/-! DEFINITION. The plain value types of the block: the byte of the wire and of a register, the 32-bit
word of the host interface, and the eight register kinds (spec/00_scope.md R4, R6; spec/30_encoding.md R83).
A line level is one bit and is a Bool: false is low (0), true is high (1). -/

namespace Sys2Proof

/-- A byte: one register of the peer, one command code, one engine run (R6). -/
abbrev Byte := BitVec 8

/-- A word of the host interface: a command word or a host register (R34, R80). -/
abbrev Word := BitVec 32

/-- The eight register kinds, in the document's order (R83). -/
inductive Kind where
  | sec | min | hour | date | month | year | day | wp
deriving DecidableEq, Repr, Inhabited

/-- The direction of the data line (R22): `out`, the block drives; `inp`, it does not. -/
inductive Dir where
  | out | inp
deriving DecidableEq, Repr, Inhabited

end Sys2Proof
end

