-- ==== Sys2Proof/Config.lean ====
section
/-! DEFINITION. What is fixed for the life of the block and given as an open parameter (spec/00_scope.md R5;
spec/10_state.md R36; spec/30_encoding.md R87, R88), and the free values the spec leaves open. A free value is
an opaque constant: nothing can evaluate it or prove a value of it. -/

namespace Sys2Proof

/-- The two command codes of one register kind (R86: "two independent entries of a table"). -/
structure CodePair where
  wr : Byte
  rd : Byte
deriving DecidableEq, Repr, Inhabited

/-- The command table CMDTAB, one pair per kind (R87). OPEN: no rule depends on its values. -/
structure CmdTab where
  sec : CodePair
  min : CodePair
  hour : CodePair
  date : CodePair
  month : CodePair
  year : CodePair
  day : CodePair
  wp : CodePair
deriving DecidableEq, Repr, Inhabited

/-- The configuration record of R5: the OPEN parameters. It is a parameter of the step relation that no
operation writes (R36); the state carries it (log 3). -/
structure Config where
  /-- CMDTAB (R87). -/
  tab : CmdTab
  /-- CTL_CHARGE, the command byte of the charge-enable control register (R88). -/
  ctlCharge : Byte
  /-- CTL_TRICKLE, the command byte of the trickle-init control register (R88). -/
  ctlTrickle : Byte
  /-- DAT_CHARGE, the data byte written to it (R88). -/
  datCharge : Byte
  /-- DAT_TRICKLE, the data byte written to it (R88). -/
  datTrickle : Byte
  /-- T_HOLD less one: T_HOLD is greater than 0 (R5; log 16). -/
  holdExtra : Nat
deriving DecidableEq, Repr, Inhabited

/-- The code of a failed pin action: 8 bits, never 0 (R120). -/
structure Cause where
  val : Byte
  nonzero : val ≠ 0
deriving DecidableEq, Repr

/-- The pin oracle's answer to one pin action (R120). A failure carries its code and whether the line took
the requested value: after it the register holds the old or the requested value, a draw (R127; log 8). -/
inductive PinAnswer where
  | ok
  | fail (cause : Cause) (took : Bool)
deriving DecidableEq, Repr, Inhabited

/-- The decoded fields of a register byte, the content of RFLD (R31). -/
structure Fields where
  f1 : Bool
  f0 : Bool
  tens : BitVec 4
  ones : BitVec 4
deriving DecidableEq, Repr, Inhabited

/-- The seven bytes of TREG[0..6]: TREG[0] seconds, [1] minutes, [2] hours, [3] date, [4] month, [5] year,
[6] day (R32). -/
structure TimeRegs where
  sec : Byte
  min : Byte
  hour : Byte
  date : Byte
  month : Byte
  year : Byte
  day : Byte
deriving DecidableEq, Repr, Inhabited

/-- The configuration of this block: OPEN, an opaque constant (R5; log 3). -/
opaque Config.board : Config

/-- The pin oracle's answers beyond those the state lists, free values (R120; log 7). -/
opaque Config.freeAnswer : Nat → PinAnswer

/-- The level of DATA_IN while the block does not drive, free values (R63; log 7). -/
opaque Config.freeLevel : Nat → Bool

/-- RES after an operation that would have written it ended with Err, free values (R30, U7; log 9). -/
opaque Config.freeByte : Nat → Byte

/-- RFLD after an operation that would have written it ended with Err, free values (R31, U7; log 9). -/
opaque Config.freeFields : Nat → Fields

/-- TREG after an RDTIMER that ended with Err, free values (R32, R224; log 9). -/
opaque Config.freeTimeRegs : Nat → TimeRegs

/-- What a host read of the write-only CMD returns, free values (R34, U12; log 20). -/
opaque Config.freeWord : Nat → Word

end Sys2Proof
end

