-- ==== Sys2Proof/Syntax.lean ====
section
/-! DEFINITION. The operations of the block (spec/30_encoding.md R82), the reserved opcodes (R85) and the wire
command codes (R86, R87): one constructor per row of spec/opcode_table.json. -/

namespace Sys2Proof

/-- One constructor per row of the opcode table. -/
inductive Instr where
  /-- TXBYTE src (R146). -/
  | txbyte (src : Byte)
  /-- TXBYTE.H src (R147). -/
  | txbyteH (src : Byte)
  /-- RXBYTE (R148). -/
  | rxbyte
  /-- RXBYTE.L (R149). -/
  | rxbyteL
  /-- WRTXN cmd, dat (R160). -/
  | wrtxn (cmd dat : Byte)
  /-- RDTXN cmd (R161). -/
  | rdtxn (cmd : Byte)
  /-- WRREG k, f1, f0, tens, ones (R210). -/
  | wrreg (k : Kind) (f1 f0 : Bool) (tens ones : BitVec 4)
  /-- RDREG k (R211). -/
  | rdreg (k : Kind)
  /-- ENC.SEC (R179). -/
  | encSec (f1 f0 : Bool) (tens ones : BitVec 4)
  /-- ENC.MIN (R180). -/
  | encMin (f1 f0 : Bool) (tens ones : BitVec 4)
  /-- ENC.HOUR (R181). -/
  | encHour (f1 f0 : Bool) (tens ones : BitVec 4)
  /-- ENC.DATE (R182). -/
  | encDate (f1 f0 : Bool) (tens ones : BitVec 4)
  /-- ENC.MONTH (R183). -/
  | encMonth (f1 f0 : Bool) (tens ones : BitVec 4)
  /-- ENC.YEAR (R184). -/
  | encYear (f1 f0 : Bool) (tens ones : BitVec 4)
  /-- ENC.DAY (R185). -/
  | encDay (f1 f0 : Bool) (tens ones : BitVec 4)
  /-- ENC.WP (R186). -/
  | encWp (f1 f0 : Bool) (tens ones : BitVec 4)
  /-- DEC.SEC byte (R187). -/
  | decSec (b : Byte)
  /-- DEC.MIN byte (R188). -/
  | decMin (b : Byte)
  /-- DEC.HOUR byte (R189). -/
  | decHour (b : Byte)
  /-- DEC.DATE byte (R190). -/
  | decDate (b : Byte)
  /-- DEC.MONTH byte (R191). -/
  | decMonth (b : Byte)
  /-- DEC.YEAR byte (R192). -/
  | decYear (b : Byte)
  /-- DEC.DAY byte (R193). -/
  | decDay (b : Byte)
  /-- DEC.WP byte (R194). -/
  | decWp (b : Byte)
  /-- RSTTIMER (R220). -/
  | rsttimer
  /-- RDTIMER (R223). -/
  | rdtimer
  /-- SETRST v (R130). -/
  | setrst (v : Bool)
  /-- SETDIR d (R131). -/
  | setdir (d : Dir)
  /-- The reserved opcode 0x0 with the rest of its word (R85). -/
  | reserved0 (rest : BitVec 28)
  /-- The reserved opcode 0xC (R85). -/
  | reservedC (rest : BitVec 28)
  /-- The reserved opcode 0xD (R85). -/
  | reservedD (rest : BitVec 28)
  /-- The reserved opcode 0xE (R85). -/
  | reservedE (rest : BitVec 28)
  /-- The reserved opcode 0xF (R85). -/
  | reservedF (rest : BitVec 28)
  /-- The wire code CMDTAB[SEC].wr with the data byte of its frame (R86, R87; log 5). -/
  | cmdSecWr (dat : Byte)
  /-- The wire code CMDTAB[SEC].rd (R86, R87; log 5). -/
  | cmdSecRd
  /-- The wire code CMDTAB[MIN].wr. -/
  | cmdMinWr (dat : Byte)
  /-- The wire code CMDTAB[MIN].rd. -/
  | cmdMinRd
  /-- The wire code CMDTAB[HOUR].wr. -/
  | cmdHourWr (dat : Byte)
  /-- The wire code CMDTAB[HOUR].rd. -/
  | cmdHourRd
  /-- The wire code CMDTAB[DATE].wr. -/
  | cmdDateWr (dat : Byte)
  /-- The wire code CMDTAB[DATE].rd. -/
  | cmdDateRd
  /-- The wire code CMDTAB[MONTH].wr. -/
  | cmdMonthWr (dat : Byte)
  /-- The wire code CMDTAB[MONTH].rd. -/
  | cmdMonthRd
  /-- The wire code CMDTAB[DAY].wr. -/
  | cmdDayWr (dat : Byte)
  /-- The wire code CMDTAB[DAY].rd. -/
  | cmdDayRd
  /-- The wire code CMDTAB[YEAR].wr. -/
  | cmdYearWr (dat : Byte)
  /-- The wire code CMDTAB[YEAR].rd. -/
  | cmdYearRd
  /-- The wire code CMDTAB[WP].wr. -/
  | cmdWpWr (dat : Byte)
  /-- The wire code CMDTAB[WP].rd. -/
  | cmdWpRd
deriving DecidableEq, Repr, Inhabited

/-- What is handed over to be decoded: a 32-bit command word of the host (R80), or, in the wire command space
(R50), a command byte with the byte that follows it in its frame (0 where none follows). -/
inductive Code where
  | cw (w : Word)
  | wire (cmd dat : Byte)
deriving DecidableEq, Repr, Inhabited

/-- Whether the operation is one the host spells with a command word (R82), not a wire code (R86). -/
def Instr.isCommand : Instr → Bool
  | .cmdSecWr _ | .cmdSecRd | .cmdMinWr _ | .cmdMinRd | .cmdHourWr _ | .cmdHourRd | .cmdDateWr _ | .cmdDateRd
  | .cmdMonthWr _ | .cmdMonthRd | .cmdDayWr _ | .cmdDayRd | .cmdYearWr _ | .cmdYearRd | .cmdWpWr _ | .cmdWpRd =>
    false
  | _ => true

end Sys2Proof
end

