-- ==== Sys2Proof/Machine/Operands.lean ====
section
/-! DEFINITION. The operands of the operations: kind codes (spec/30_encoding.md R83), the command table and the
control constants (R87, R88; spec/00_scope.md R5), and the operand domain (spec/43_codec.md R196). -/

namespace Sys2Proof

/-- The 3-bit kind code `k` of R83. -/
def Kind.code : Kind → BitVec 3
  | .sec => 0 | .min => 1 | .hour => 2 | .date => 3
  | .month => 4 | .year => 5 | .day => 6 | .wp => 7

/-- The kind of a code; all eight values are in use (R83). -/
def Kind.ofCode (k : BitVec 3) : Kind :=
  if k = 0 then .sec else if k = 1 then .min else if k = 2 then .hour else if k = 3 then .date
  else if k = 4 then .month else if k = 5 then .year else if k = 6 then .day else .wp

/-- The table entry of a kind (R87). -/
def CmdTab.get (tab : CmdTab) : Kind → CodePair
  | .sec => tab.sec | .min => tab.min | .hour => tab.hour | .date => tab.date
  | .month => tab.month | .year => tab.year | .day => tab.day | .wp => tab.wp

/-- The hold delay T_HOLD in abstract time units, greater than 0 (R5, R126). -/
def Config.tHold (c : Config) : Nat := c.holdExtra + 1

/-- CTL_WP is taken equal to CMDTAB[WP].wr (R88, spec/90_conflicts.md C3). -/
def Config.ctlWp (c : Config) : Byte := c.tab.wp.wr

/-- DAT_WPDIS, the data byte that disables write protection (R5, R88). -/
def datWpDis : Byte := 0x00

/-- DAT_WPEN, the data byte that enables write protection (R5, R88). -/
def datWpEn : Byte := 0x80

/-- The codes of the table in the order PEER-ECHO looks them up and R65 lists them. -/
def CmdTab.codes (tab : CmdTab) : List Byte :=
  [tab.sec.wr, tab.sec.rd, tab.min.wr, tab.min.rd, tab.hour.wr, tab.hour.rd, tab.date.wr, tab.date.rd,
   tab.month.wr, tab.month.rd, tab.year.wr, tab.year.rd, tab.day.wr, tab.day.rd, tab.wp.wr, tab.wp.rd]

/-- The premise of PEER-ECHO on the codes: the sixteen codes, CTL_CHARGE and CTL_TRICKLE are pairwise
different (R65). -/
abbrev Config.Distinct (c : Config) : Prop := (c.tab.codes ++ [c.ctlCharge, c.ctlTrickle]).Nodup

/-- The suggested instantiation of CMDTAB (R87, from general knowledge; for the rows of
spec/opcode_table.json marked `suggested` and for tests only, log 4). -/
def CmdTab.suggested : CmdTab where
  sec := ⟨0x80, 0x81⟩
  min := ⟨0x82, 0x83⟩
  hour := ⟨0x84, 0x85⟩
  date := ⟨0x86, 0x87⟩
  month := ⟨0x88, 0x89⟩
  year := ⟨0x8C, 0x8D⟩
  day := ⟨0x8A, 0x8B⟩
  wp := ⟨0x8E, 0x8F⟩

/-- The operand domain of `ENC.k` and `WRREG k`, row by row (R196; the flags as R84). -/
def inDomain : Kind → (f1 f0 : Bool) → (tens ones : BitVec 4) → Bool
  | .sec, _, f0, tens, _ => !f0 && tens ≤ 7
  | .min, f1, f0, tens, _ => !f1 && !f0 && tens ≤ 7
  | .hour, f1, f0, tens, _ => if f1 then tens ≤ 1 else !f0 && tens ≤ 3
  | .date, f1, f0, tens, _ => !f1 && !f0 && tens ≤ 3
  | .month, f1, f0, tens, _ => !f1 && !f0 && tens ≤ 1
  | .year, f1, f0, _, _ => !f1 && !f0
  | .day, f1, f0, tens, _ => !f1 && !f0 && tens == 0
  | .wp, _, f0, tens, ones => !f0 && tens == 0 && ones == 0

end Sys2Proof
end

