-- ==== Sys2Proof/Machine/Codec.lean ====
section
/-! DEFINITION. The BCD register codec (spec/43_codec.md R175 to R197; the byte layouts of spec/30_encoding.md R89
to R97) and the host's arithmetic on it: DIGITS, VALUE, YEARFULL. The codec is pure and total; what lies outside
the operand domain of R196 is refused by the operations before they call it. -/

namespace Sys2Proof.Machine

/-- The fields DEC.k takes from a register byte, per kind (R187 to R194; layouts R90 to R97). -/
def decodeFields (k : Kind) (b : Byte) : Fields :=
  match k with
  | .sec => ⟨b.getLsbD 7, false, 0#1 ++ b.extractLsb' 4 3, b.extractLsb' 0 4⟩
  | .min => ⟨false, false, 0#1 ++ b.extractLsb' 4 3, b.extractLsb' 0 4⟩
  | .hour =>
    if b.getLsbD 7 then ⟨true, b.getLsbD 5, 0#3 ++ b.extractLsb' 4 1, b.extractLsb' 0 4⟩
    else ⟨false, false, 0#2 ++ b.extractLsb' 4 2, b.extractLsb' 0 4⟩
  | .date => ⟨false, false, 0#2 ++ b.extractLsb' 4 2, b.extractLsb' 0 4⟩
  | .month => ⟨false, false, 0#3 ++ b.extractLsb' 4 1, b.extractLsb' 0 4⟩
  | .year => ⟨false, false, b.extractLsb' 4 4, b.extractLsb' 0 4⟩
  | .day => ⟨false, false, 0, b.extractLsb' 0 4⟩
  | .wp => ⟨b.getLsbD 7, false, 0, 0⟩

/-- The byte ENC.k makes of fields inside the domain, per kind (R179 to R186; layouts R90 to R97). -/
def encodeFields (k : Kind) (f1 f0 : Bool) (tens ones : BitVec 4) : Byte :=
  match k with
  | .sec => BitVec.ofBool f1 ++ tens.extractLsb' 0 3 ++ ones
  | .min => 0#1 ++ tens.extractLsb' 0 3 ++ ones
  | .hour =>
    if f1 then 1#1 ++ 0#1 ++ BitVec.ofBool f0 ++ tens.extractLsb' 0 1 ++ ones
    else 0#1 ++ 0#1 ++ tens.extractLsb' 0 2 ++ ones
  | .date => 0#2 ++ tens.extractLsb' 0 2 ++ ones
  | .month => 0#3 ++ tens.extractLsb' 0 1 ++ ones
  | .year => tens ++ ones
  | .day => 0#4 ++ ones
  | .wp => BitVec.ofBool f1 ++ 0#7

/-- DIGITS(v), defined for v in 0..99: the tens and the ones digit (R176). -/
def digits (v : Nat) : Option (Nat × Nat) := if v ≤ 99 then some (v / 10, v % 10) else none

/-- VALUE(tens, ones) = 10 * tens + ones, defined when ones is at most 9 (R177, U3). -/
def value (tens ones : Nat) : Option Nat := if ones ≤ 9 then some (10 * tens + ones) else none

/-- EPOCH (R4). -/
def epoch : Nat := 1970

/-- YEARFULL(tens, ones) = 1970 + VALUE(tens, ones) (R197). -/
def yearFull (tens ones : Nat) : Option Nat := (value tens ones).map (epoch + ·)

end Sys2Proof.Machine
end

