-- ==== Sys2Proof/Machine/HostFns.lean ====
section
/-! DEFINITION. Functions of the host that the spec gives: the timestamp line FORMAT (spec/45_timer_sequences.md
R225), the value form WRREGV (spec/30_encoding.md R101), and the levels of a byte-valued pin back end (spec/
40_pin_primitives.md R129). No operation of the block uses them. -/

namespace Sys2Proof.Machine

/-- VALUE of the digits DEC.k takes from a byte (R225: `V_i`). -/
def valueOf (k : Kind) (b : Byte) : Option Nat :=
  value (decodeFields k b).tens.toNat (decodeFields k b).ones.toNat

/-- A number in decimal, padded with zeros on the left to `w` places (R225: dec2, dec4; dec is `w = 0`). -/
def padded (w n : Nat) : List Char :=
  List.replicate (w - (Nat.toDigits 10 n).length) '0' ++ Nat.toDigits 10 n

/-- FORMAT(TREG), defined when every ones field is at most 9 (R225). -/
def format (r : TimeRegs) : Option (List Char) :=
  match valueOf .sec r.sec, valueOf .min r.min, valueOf .hour r.hour, valueOf .date r.date, valueOf .month r.month,
    valueOf .year r.year, valueOf .day r.day with
  | some v0, some v1, some v2, some v3, some v4, some v5, some v6 =>
    some (padded 4 (epoch + v5) ++ ['-'] ++ padded 2 v4 ++ ['-'] ++ padded 2 v3 ++ [' '] ++ padded 2 v2 ++ [':'] ++
      padded 2 v1 ++ [':'] ++ padded 2 v0 ++ [' '] ++ padded 0 v6 ++ ['t', 'h'])
  | _, _, _, _, _, _, _ => none

/-- TENS_W[k] in bits; HOUR as in 24-hour mode (R5, R89 to R97). -/
def tensWidth : Kind → Nat
  | .sec => 3 | .min => 3 | .hour => 2 | .date => 2 | .month => 1 | .year => 4 | .day => 0 | .wp => 0

/-- WRREGV k, v stands for WRREG k, 0, 0, v div 10, v mod 10, defined when the tens fit (R101). R210 writes DIGITS(v),
which R176 defines up to 99 only; the two differ for YEAR 100 to 159, where R101 is followed (DESIGN CHOICE, log 24). -/
def wrregv (k : Kind) (v : Nat) : Option Instr :=
  if v / 10 < 2 ^ tensWidth k then
    some (.wrreg k false false (BitVec.ofNat 4 (v / 10)) (BitVec.ofNat 4 (v % 10)))
  else none

/-- The level of a byte read from a byte-valued pin back end: the character `0` is low, every other byte is high
(R129, U18). -/
def levelOfByte (b : Byte) : Bool := b != 0x30

/-- The character a drive writes for a level (R129). -/
def charOfLevel (v : Bool) : Char := if v then '1' else '0'

/-- The word a direction switch writes (R129). -/
def wordOfDir (d : Dir) : String :=
  match d with
  | .inp => "in"
  | .out => "out"

end Sys2Proof.Machine
end

