-- ==== Sys2Proof/WellFormed.lean ====
section
/-! DEFINITION. The well-formed operations: those inside the operand domain of spec/43_codec.md R196, and no
reserved opcode (spec/30_encoding.md R85). -/

namespace Sys2Proof

/-- An operation the spec gives a behaviour: its operands are in the domain (R196), and its opcode is not
reserved (R85). -/
def Instr.wellFormed : Instr → Bool
  | .wrreg k f1 f0 tens ones => inDomain k f1 f0 tens ones
  | .encSec f1 f0 tens ones => inDomain .sec f1 f0 tens ones
  | .encMin f1 f0 tens ones => inDomain .min f1 f0 tens ones
  | .encHour f1 f0 tens ones => inDomain .hour f1 f0 tens ones
  | .encDate f1 f0 tens ones => inDomain .date f1 f0 tens ones
  | .encMonth f1 f0 tens ones => inDomain .month f1 f0 tens ones
  | .encYear f1 f0 tens ones => inDomain .year f1 f0 tens ones
  | .encDay f1 f0 tens ones => inDomain .day f1 f0 tens ones
  | .encWp f1 f0 tens ones => inDomain .wp f1 f0 tens ones
  | .reserved0 _ | .reservedC _ | .reservedD _ | .reservedE _ | .reservedF _ => false
  | .txbyte _ | .txbyteH _ | .rxbyte | .rxbyteL | .wrtxn _ _ | .rdtxn _ | .rdreg _ => true
  | .decSec _ | .decMin _ | .decHour _ | .decDate _ | .decMonth _ | .decYear _ | .decDay _ | .decWp _ => true
  | .rsttimer | .rdtimer | .setrst _ | .setdir _ => true
  | .cmdSecWr _ | .cmdSecRd | .cmdMinWr _ | .cmdMinRd | .cmdHourWr _ | .cmdHourRd | .cmdDateWr _ | .cmdDateRd => true
  | .cmdMonthWr _ | .cmdMonthRd | .cmdDayWr _ | .cmdDayRd | .cmdYearWr _ | .cmdYearRd | .cmdWpWr _ | .cmdWpRd => true

end Sys2Proof
end

