-- ==== Sys2Proof/Decode.lean ====
section
/-! DEFINITION. Decoding a command word (spec/30_encoding.md R80 to R85) or a wire command code (R86, R87), and
the encoder written from the same tables. Decoding is total; what it rejects it rejects by name. -/

namespace Sys2Proof

/-- The five fields of a command word (R80). -/
structure Parts where
  opc : BitVec 4
  sub : BitVec 4
  a : Byte
  b : Byte
  c : Byte
deriving DecidableEq, Repr, Inhabited

/-- The fields of a word: `opc` 31:28, `sub` 27:24, `a` 23:16, `b` 15:8, `c` 7:0 (R80). -/
def Parts.ofWord (w : Word) : Parts :=
  ⟨w.extractLsb' 28 4, w.extractLsb' 24 4, w.extractLsb' 16 8, w.extractLsb' 8 8, w.extractLsb' 0 8⟩

/-- The word of five fields (R80). -/
def Parts.toWord (p : Parts) : Word := p.opc ++ p.sub ++ p.a ++ p.b ++ p.c

/-- Why a code is no operation. -/
inductive Reject where
  /-- A bit the format does not use is 1 (R85, U1). -/
  | mustBeZero
  /-- A wire command byte that is none of the named codes of R59, of which no source says whether a write or a read
  frame follows it (R59, R86; log 5). For the decoder of the table alone: outside the table. -/
  | unlistedCode
deriving DecidableEq, Repr, Inhabited

/-- The flag operands `f1`, `f0` of format K: `a[1]` and `a[0]` (R81, R84). -/
def flagsOf (a : Byte) : Bool × Bool := (a.getLsbD 1, a.getLsbD 0)

/-- The 4-bit digit in the low half of a field, `tens` of `b` and `ones` of `c` in format K (R81). -/
def digitOf (x : Byte) : BitVec 4 := x.extractLsb' 0 4

/-- The must-be-zero bits of format K: `sub[3]`, `a[7:2]`, `b[7:4]`, `c[7:4]` (R85). -/
def legalK (p : Parts) : Bool :=
  !p.sub.getLsbD 3 && p.a.extractLsb' 2 6 == 0 && p.b.extractLsb' 4 4 == 0 && p.c.extractLsb' 4 4 == 0

/-- Format B: `sub` is `00 dir pol`, `a = b = 0`, `c` the source byte when `dir = 0`, else 0 (R81). -/
def decodeB (p : Parts) : Except Reject Instr :=
  if p.a = 0 ∧ p.b = 0 then
    if p.sub = 0 then .ok (.txbyteH p.c)
    else if p.sub = 1 then .ok (.txbyte p.c)
    else if p.sub = 2 ∧ p.c = 0 then .ok .rxbyte
    else if p.sub = 3 ∧ p.c = 0 then .ok .rxbyteL
    else .error .mustBeZero
  else .error .mustBeZero

/-- `ENC.k` of a kind (R82). -/
def encOf (k : Kind) (f1 f0 : Bool) (tens ones : BitVec 4) : Instr :=
  match k with
  | .sec => .encSec f1 f0 tens ones
  | .min => .encMin f1 f0 tens ones
  | .hour => .encHour f1 f0 tens ones
  | .date => .encDate f1 f0 tens ones
  | .month => .encMonth f1 f0 tens ones
  | .year => .encYear f1 f0 tens ones
  | .day => .encDay f1 f0 tens ones
  | .wp => .encWp f1 f0 tens ones

/-- `DEC.k` of a kind (R82). -/
def decOf (k : Kind) (b : Byte) : Instr :=
  match k with
  | .sec => .decSec b
  | .min => .decMin b
  | .hour => .decHour b
  | .date => .decDate b
  | .month => .decMonth b
  | .year => .decYear b
  | .day => .decDay b
  | .wp => .decWp b

/-- The kind in `sub[2:0]` (R80). -/
def kindOf (p : Parts) : Kind := Kind.ofCode (p.sub.extractLsb' 0 3)

/-- Format K: a kind with fields (R81). -/
def decodeK (mk : Kind → Bool → Bool → BitVec 4 → BitVec 4 → Instr) (p : Parts) : Except Reject Instr :=
  if legalK p then .ok (mk (kindOf p) (flagsOf p.a).1 (flagsOf p.a).2 (digitOf p.b) (digitOf p.c))
  else .error .mustBeZero

/-- The low 28 bits of a reserved word. -/
def restOf (p : Parts) : BitVec 28 := p.sub ++ p.a ++ p.b ++ p.c

/-- The operation of a command word's fields, by the operation map (R82) and the must-be-zero bits (R85). -/
def decodeParts (p : Parts) : Except Reject Instr :=
  if p.opc = 0x0 then .ok (.reserved0 (restOf p))
  else if p.opc = 0x1 then decodeB p
  else if p.opc = 0x2 then
    if p.sub = 0 ∧ p.b = 0 then .ok (.wrtxn p.a p.c) else .error .mustBeZero
  else if p.opc = 0x3 then
    if p.sub = 0 ∧ p.b = 0 ∧ p.c = 0 then .ok (.rdtxn p.a) else .error .mustBeZero
  else if p.opc = 0x4 then decodeK .wrreg p
  else if p.opc = 0x5 then
    if p.sub.getLsbD 3 = false ∧ p.a = 0 ∧ p.b = 0 ∧ p.c = 0 then .ok (.rdreg (kindOf p)) else .error .mustBeZero
  else if p.opc = 0x6 then decodeK encOf p
  else if p.opc = 0x7 then
    if p.sub.getLsbD 3 = false ∧ p.a = 0 ∧ p.b = 0 then .ok (decOf (kindOf p) p.c) else .error .mustBeZero
  else if p.opc = 0x8 then
    if p.sub = 0 ∧ p.a = 0 ∧ p.b = 0 ∧ p.c = 0 then .ok .rsttimer else .error .mustBeZero
  else if p.opc = 0x9 then
    if p.sub = 0 ∧ p.a = 0 ∧ p.b = 0 ∧ p.c = 0 then .ok .rdtimer else .error .mustBeZero
  else if p.opc = 0xA then
    if p.sub.extractLsb' 1 3 = 0 ∧ p.a = 0 ∧ p.b = 0 ∧ p.c = 0 then .ok (.setrst (p.sub.getLsbD 0))
    else .error .mustBeZero
  else if p.opc = 0xB then
    if p.sub.extractLsb' 1 3 = 0 ∧ p.a = 0 ∧ p.b = 0 ∧ p.c = 0 then
      .ok (.setdir (if p.sub.getLsbD 0 then .out else .inp))
    else .error .mustBeZero
  else if p.opc = 0xC then .ok (.reservedC (restOf p))
  else if p.opc = 0xD then .ok (.reservedD (restOf p))
  else if p.opc = 0xE then .ok (.reservedE (restOf p))
  else .ok (.reservedF (restOf p))

/-- The operation of a command word (R80 to R85). -/
def decodeWord (w : Word) : Except Reject Instr := decodeParts (Parts.ofWord w)

/-- A read code is followed by no byte of the block's (R54, R100); the model asks for a zero there. -/
def readCode (dat : Byte) (i : Instr) : Except Reject Instr := if dat = 0 then .ok i else .error .mustBeZero

/-- The wire command code of a byte, compared with the table in the order of R65 (R86, R87; log 5). -/
def decodeWire (tab : CmdTab) (cmd dat : Byte) : Except Reject Instr :=
  if cmd = tab.sec.wr then .ok (.cmdSecWr dat)
  else if cmd = tab.sec.rd then readCode dat .cmdSecRd
  else if cmd = tab.min.wr then .ok (.cmdMinWr dat)
  else if cmd = tab.min.rd then readCode dat .cmdMinRd
  else if cmd = tab.hour.wr then .ok (.cmdHourWr dat)
  else if cmd = tab.hour.rd then readCode dat .cmdHourRd
  else if cmd = tab.date.wr then .ok (.cmdDateWr dat)
  else if cmd = tab.date.rd then readCode dat .cmdDateRd
  else if cmd = tab.month.wr then .ok (.cmdMonthWr dat)
  else if cmd = tab.month.rd then readCode dat .cmdMonthRd
  else if cmd = tab.year.wr then .ok (.cmdYearWr dat)
  else if cmd = tab.year.rd then readCode dat .cmdYearRd
  else if cmd = tab.day.wr then .ok (.cmdDayWr dat)
  else if cmd = tab.day.rd then readCode dat .cmdDayRd
  else if cmd = tab.wp.wr then .ok (.cmdWpWr dat)
  else if cmd = tab.wp.rd then readCode dat .cmdWpRd
  else .error .unlistedCode

/-- The operation of a code. -/
def decode (tab : CmdTab) : Code → Except Reject Instr
  | .cw w => decodeWord w
  | .wire cmd dat => decodeWire tab cmd dat

/-- The operation of a code that the host hands over: the decoder's, and for a wire byte outside the table that is a
control address, the write frame it opens, since R88 calls each "one write command byte". That such a bare byte runs as
WRTXN of itself, and that the table comes first where a control address equals a code of it, is the model's choice
(R59, R88; DESIGN CHOICE, log 5). -/
def decodeCall (cfg : Config) : Code → Except Reject Instr
  | .cw w => decodeWord w
  | .wire cmd dat =>
    match decodeWire cfg.tab cmd dat with
    | .ok i => .ok i
    | .error .mustBeZero => .error .mustBeZero
    | .error .unlistedCode =>
      if cmd = cfg.ctlCharge ∨ cmd = cfg.ctlTrickle then .ok (.wrtxn cmd dat) else .error .unlistedCode

/-- The code that the bits of an opcode-table row spell: a row of 8 bits is a wire command byte (a data byte
may follow it in bits 15:8), a row of 32 bits is a command word. -/
def tableCode (nbits w : Nat) : Code :=
  if nbits ≤ 16 then .wire (BitVec.ofNat 8 w) (BitVec.ofNat 8 (w / 256)) else .cw (BitVec.ofNat 32 w)

/-- What the decoder reads from the bits of an opcode-table row. The rows of 8 bits are the suggested
instantiation of CMDTAB (R87; log 4), so they are read under it. -/
def decodeTableWord (nbits w : Nat) : Option Instr :=
  match decode CmdTab.suggested (tableCode nbits w) with
  | .ok i => some i
  | .error _ => none

/-- The `sub` field that names a kind: `sub[3] = 0`, `sub[2:0] = k` (R81). -/
def subOfKind (k : Kind) : BitVec 4 := 0#1 ++ k.code

/-- The `a` field of format K, `000000 f1 f0` (R81). -/
def aOfFlags (f1 f0 : Bool) : Byte := 0#6 ++ BitVec.ofBool f1 ++ BitVec.ofBool f0

/-- A digit in the low half of a byte (R81). -/
def byteOfDigit (d : BitVec 4) : Byte := 0#4 ++ d

/-- A word of format K (R81). -/
def partsK (opc : BitVec 4) (k : Kind) (f1 f0 : Bool) (tens ones : BitVec 4) : Parts :=
  ⟨opc, subOfKind k, aOfFlags f1 f0, byteOfDigit tens, byteOfDigit ones⟩

/-- A word of a reserved opcode. -/
def partsReserved (opc : BitVec 4) (r : BitVec 28) : Parts :=
  ⟨opc, r.extractLsb' 24 4, r.extractLsb' 16 8, r.extractLsb' 8 8, r.extractLsb' 0 8⟩

/-- The fields of an operation's command word (R81, R82). A wire code is no command word; the command word that
sends its frame is that of WRTXN or RDTXN with the code of the table (R160, R161; log 5). -/
def encodeParts (tab : CmdTab) : Instr → Parts
  | .txbyte src => ⟨0x1, 1, 0, 0, src⟩
  | .txbyteH src => ⟨0x1, 0, 0, 0, src⟩
  | .rxbyte => ⟨0x1, 2, 0, 0, 0⟩
  | .rxbyteL => ⟨0x1, 3, 0, 0, 0⟩
  | .wrtxn cmd dat => ⟨0x2, 0, cmd, 0, dat⟩
  | .rdtxn cmd => ⟨0x3, 0, cmd, 0, 0⟩
  | .wrreg k f1 f0 tens ones => partsK 0x4 k f1 f0 tens ones
  | .rdreg k => ⟨0x5, subOfKind k, 0, 0, 0⟩
  | .encSec f1 f0 tens ones => partsK 0x6 .sec f1 f0 tens ones
  | .encMin f1 f0 tens ones => partsK 0x6 .min f1 f0 tens ones
  | .encHour f1 f0 tens ones => partsK 0x6 .hour f1 f0 tens ones
  | .encDate f1 f0 tens ones => partsK 0x6 .date f1 f0 tens ones
  | .encMonth f1 f0 tens ones => partsK 0x6 .month f1 f0 tens ones
  | .encYear f1 f0 tens ones => partsK 0x6 .year f1 f0 tens ones
  | .encDay f1 f0 tens ones => partsK 0x6 .day f1 f0 tens ones
  | .encWp f1 f0 tens ones => partsK 0x6 .wp f1 f0 tens ones
  | .decSec b => ⟨0x7, subOfKind .sec, 0, 0, b⟩
  | .decMin b => ⟨0x7, subOfKind .min, 0, 0, b⟩
  | .decHour b => ⟨0x7, subOfKind .hour, 0, 0, b⟩
  | .decDate b => ⟨0x7, subOfKind .date, 0, 0, b⟩
  | .decMonth b => ⟨0x7, subOfKind .month, 0, 0, b⟩
  | .decYear b => ⟨0x7, subOfKind .year, 0, 0, b⟩
  | .decDay b => ⟨0x7, subOfKind .day, 0, 0, b⟩
  | .decWp b => ⟨0x7, subOfKind .wp, 0, 0, b⟩
  | .rsttimer => ⟨0x8, 0, 0, 0, 0⟩
  | .rdtimer => ⟨0x9, 0, 0, 0, 0⟩
  | .setrst v => ⟨0xA, 0#3 ++ BitVec.ofBool v, 0, 0, 0⟩
  | .setdir d => ⟨0xB, if d = .out then 1 else 0, 0, 0, 0⟩
  | .reserved0 r => partsReserved 0x0 r
  | .reservedC r => partsReserved 0xC r
  | .reservedD r => partsReserved 0xD r
  | .reservedE r => partsReserved 0xE r
  | .reservedF r => partsReserved 0xF r
  | .cmdSecWr dat => ⟨0x2, 0, tab.sec.wr, 0, dat⟩
  | .cmdSecRd => ⟨0x3, 0, tab.sec.rd, 0, 0⟩
  | .cmdMinWr dat => ⟨0x2, 0, tab.min.wr, 0, dat⟩
  | .cmdMinRd => ⟨0x3, 0, tab.min.rd, 0, 0⟩
  | .cmdHourWr dat => ⟨0x2, 0, tab.hour.wr, 0, dat⟩
  | .cmdHourRd => ⟨0x3, 0, tab.hour.rd, 0, 0⟩
  | .cmdDateWr dat => ⟨0x2, 0, tab.date.wr, 0, dat⟩
  | .cmdDateRd => ⟨0x3, 0, tab.date.rd, 0, 0⟩
  | .cmdMonthWr dat => ⟨0x2, 0, tab.month.wr, 0, dat⟩
  | .cmdMonthRd => ⟨0x3, 0, tab.month.rd, 0, 0⟩
  | .cmdDayWr dat => ⟨0x2, 0, tab.day.wr, 0, dat⟩
  | .cmdDayRd => ⟨0x3, 0, tab.day.rd, 0, 0⟩
  | .cmdYearWr dat => ⟨0x2, 0, tab.year.wr, 0, dat⟩
  | .cmdYearRd => ⟨0x3, 0, tab.year.rd, 0, 0⟩
  | .cmdWpWr dat => ⟨0x2, 0, tab.wp.wr, 0, dat⟩
  | .cmdWpRd => ⟨0x3, 0, tab.wp.rd, 0, 0⟩

/-- The command word of an operation (R80 to R82): what CWR holds while it runs (R27). -/
def commandWord (tab : CmdTab) (i : Instr) : Word := (encodeParts tab i).toWord

/-- The code of an operation in its own space: a command word, or for a wire code the command byte and its data
byte (R80, R86). -/
def encode (tab : CmdTab) : Instr → Code
  | .cmdSecWr dat => .wire tab.sec.wr dat
  | .cmdSecRd => .wire tab.sec.rd 0
  | .cmdMinWr dat => .wire tab.min.wr dat
  | .cmdMinRd => .wire tab.min.rd 0
  | .cmdHourWr dat => .wire tab.hour.wr dat
  | .cmdHourRd => .wire tab.hour.rd 0
  | .cmdDateWr dat => .wire tab.date.wr dat
  | .cmdDateRd => .wire tab.date.rd 0
  | .cmdMonthWr dat => .wire tab.month.wr dat
  | .cmdMonthRd => .wire tab.month.rd 0
  | .cmdDayWr dat => .wire tab.day.wr dat
  | .cmdDayRd => .wire tab.day.rd 0
  | .cmdYearWr dat => .wire tab.year.wr dat
  | .cmdYearRd => .wire tab.year.rd 0
  | .cmdWpWr dat => .wire tab.wp.wr dat
  | .cmdWpRd => .wire tab.wp.rd 0
  | i => .cw (commandWord tab i)

end Sys2Proof
end

