-- ==== Sys2Proof/Machine/State.lean ====
section
/-! DEFINITION. The state of the block and of its environment as plain data (spec/10_state.md R20 to R38), the
reasons a step can stop, and the state after hardware reset (R38). -/

namespace Sys2Proof.Machine

/-- The four pin actions that drive a line (spec/40_pin_primitives.md R121, R122, R124, R125). -/
inductive Drive where
  /-- PinDriveClk(v), R121. -/
  | clk (v : Bool)
  /-- PinDriveData(v), R122. -/
  | data (v : Bool)
  /-- PinDriveRst(v), R124. -/
  | rst (v : Bool)
  /-- PinSetDataDir(d), R125. -/
  | dir (d : Dir)
deriving DecidableEq, Repr, Inhabited

/-- The five pin actions (spec/00_scope.md R7). -/
inductive PinAct where
  | drive (d : Drive)
  /-- PinSampleData(), R123. -/
  | sample
deriving DecidableEq, Repr, Inhabited

/-- The events of the wire trace (R9). -/
inductive Event where
  | clk (v : Bool)
  | dat (v : Bool)
  | smp (v : Bool)
  | rst (v : Bool)
  | dir (d : Dir)
  | dly
  /-- The event of a pin action that failed, written with a bang in R9. -/
  | failed (a : PinAct)
deriving DecidableEq, Repr, Inhabited

/-- One step of an operation's list: a pin action or a hold of the engine and of the transactions, or the load
of an engine register between two events (R140 to R143, R148, R160, R161). -/
inductive Micro where
  /-- TXD <- b (R146, R160). -/
  | loadTxd (b : Byte)
  /-- RXD <- 0 (R148, R161). -/
  | clearRxd
  /-- PinDriveClk(v) in cycle t of a run (R140). -/
  | clk (v : Bool) (t : BitVec 3)
  /-- Hold() (R126). -/
  | hold
  /-- TxBit(t) (R142). -/
  | txBit (t : BitVec 3)
  /-- RxBit(t) (R143). -/
  | rxBit (t : BitVec 3)
  /-- PinDriveRst(v) (R124). -/
  | rst (v : Bool)
  /-- PinSetDataDir(d) (R125). -/
  | dir (d : Dir)
deriving DecidableEq, Repr, Inhabited

/-- A part of an operation that a failure ends: its steps, whether the unconditional RST(0) of a transaction
closes it (R162), and whether it receives a byte the operation collects (R161, R223). -/
structure Frame where
  body : List Micro
  closes : Bool
  reads : Bool
deriving DecidableEq, Repr, Inhabited

/-- The first failed pin action of an operation: its code and its event index (R134, R162). -/
structure Failure where
  cause : Cause
  step : Nat
deriving DecidableEq, Repr

/-- The error kinds, all five (R240; spec/30_encoding.md R103). -/
inductive ErrKind where
  /-- Never raised by this block (R243). -/
  | outOfRange
  /-- Never raised by this block (R243). -/
  | resourceUnavailable
  /-- A single pin action failed (R241). -/
  | ioError
  /-- A pin action inside a run, a transaction or a sequence failed (R242). -/
  | protocolAborted
  /-- Never raised by this block (R243). -/
  | handlerFailed
deriving DecidableEq, Repr, Inhabited

/-- The fields of STATUS (R29). EKIND 0 is `none`. Bits 3 and 7 are reserved and read 0. -/
structure Status where
  busy : Bool
  done : Bool
  err : Bool
  ekind : Option ErrKind
  ecause : Byte
  estep : BitVec 16
deriving DecidableEq, Repr, Inhabited

/-- The sequencer while an operation runs: which operation, and which of its steps are left (R28). -/
structure Running where
  /-- The operation. -/
  op : Instr
  /-- The steps left of the frame in progress, before its lowering of reset. -/
  body : List Micro
  /-- Whether the frame in progress still has its final RST(0) to do (R162). -/
  closes : Bool
  /-- Whether the frame in progress delivers RXD to the operation. -/
  reads : Bool
  /-- The frames after it. -/
  rest : List Frame
  /-- The first failure of the operation, if any (R134, R162). -/
  err : Option Failure
  /-- The bytes received so far (RDTIMER, R223; log 10). -/
  got : List Byte
deriving DecidableEq, Repr

/-- SEQ (R28). -/
inductive Seq where
  | idle
  | run (r : Running)
deriving DecidableEq, Repr, Inhabited

/-- The register bytes of PEER-ECHO by slot address, in strictly rising order; a slot with no entry has "no
value" (R65), so no entry equals what an unlisted slot reads as. -/
abbrev Memory := List Host.Cell

/-- The canonical form of a memory: addresses strictly rising. -/
def Memory.wf : Memory → Bool
  | [] => true
  | [_] => true
  | a :: b :: r => decide (a.1 < b.1) && Memory.wf (b :: r)

/-- The slots of PEER-ECHO (R65). -/
inductive Slot where
  | reg (k : Kind)
  | charge
  | trickle
deriving DecidableEq, Repr, Inhabited

/-- What the command byte of the open frame selected in PEER-ECHO (R65). -/
inductive Sel where
  | none
  | wr (s : Slot)
  | rd (s : Slot)
deriving DecidableEq, Repr, Inhabited

/-- The state of the reference echo peer PEER-ECHO (R65). -/
structure Peer where
  /-- A frame is open. -/
  act : Bool
  /-- The last clock level seen. -/
  pclk : Bool
  /-- Clock rises seen in this frame, 0..16. -/
  n : Nat
  /-- Bits put out in this frame, 0..8. -/
  m : Nat
  csh : Byte
  dsh : Byte
  sel : Sel
  /-- The level put out; `none` when undriven, or when the slot read held no value. -/
  out : Option Bool
  mem : Memory
deriving DecidableEq, Repr, Inhabited

/-- PEER-ECHO as it starts: the clock seen low and every slot with "no value" (R65). R65 gives no other start value; that no
frame is open, nothing is selected, the line is undriven and the counters and shift registers are 0 is the model's choice
(DESIGN CHOICE, log 25). -/
def Peer.fresh : Peer :=
  { act := false, pclk := false, n := 0, m := 0, csh := 0, dsh := 0, sel := .none, out := none, mem := [] }

/-- What the host does next (R34, R101, R132; log 13). -/
inductive HostAct where
  /-- Issue an operation and wait for its completion (spec/92_eei_decisions.md D1: "take the operations as
  calls"); a wire code stands for the frame it opens (log 5). -/
  | call (c : Code)
  /-- Do nothing while the sequencer takes one turn. -/
  | pass
  /-- Read the host register at a byte offset (R34). -/
  | read (off : Nat)
  /-- Write the host register at a byte offset; a write of CMD issues an operation and does not wait (R34, R132). -/
  | write (off : Nat) (v : Word)
  /-- Assert the block's own hardware reset (R270, R271). -/
  | reset
deriving DecidableEq, Repr, Inhabited

/-- The whole state. -/
structure State where
  /-- CLK (R21). -/
  clk : Bool
  /-- DATA_OUT (R22). -/
  dataOut : Bool
  /-- DATA_OE (R22): true when the direction is `out`. -/
  dataOe : Bool
  /-- RST (R23). -/
  rst : Bool
  /-- PWR (R24). -/
  pwr : Bool
  /-- TXD (R25). -/
  txd : Byte
  /-- RXD (R26). -/
  rxd : Byte
  /-- CWR (R27). -/
  cwr : Word
  /-- RES (R30). -/
  res : Byte
  /-- RFLD (R31). -/
  rfld : Fields
  /-- TREG[0..6] (R32). -/
  treg : TimeRegs
  /-- An operation wrote RES since reset: the record of R38's "no value", for claims (log 2). -/
  resSet : Bool
  /-- An operation wrote RFLD since reset (as `resSet`; log 2). -/
  rfldSet : Bool
  /-- An operation wrote TREG since reset (as `resSet`; log 2). -/
  tregSet : Bool
  /-- SEQ (R28). -/
  seq : Seq
  /-- T, the cycle index (R28). -/
  t : BitVec 3
  /-- PH, the phase: false low, true high (R28). -/
  ph : Bool
  /-- The number of events the operation has produced (R134). -/
  evIdx : Nat
  /-- DLY, the hold counter (R33). -/
  dly : Nat
  /-- STATUS (R29). -/
  status : Status
  /-- The configuration (R5, R36); no operation writes it. -/
  cfg : Config
  /-- The wire trace so far, oldest event first (R9). -/
  trace : List Event
  /-- The pin oracle's coming answers (R120; log 7). -/
  pins : List PinAnswer
  /-- The coming levels of DATA_IN while the block does not drive (R63; log 7). -/
  levels : List Bool
  /-- How many free values were taken (log 7). -/
  draws : Nat
  /-- PEER-ECHO, when it is the peer (R65; log 18). -/
  peer : Option Peer
  /-- The host's coming actions (log 13). -/
  host : List HostAct
  /-- The word the last host read returned (R34). -/
  bus : Word
deriving DecidableEq, Repr

/-- Why the machine stops with a fault. -/
inductive Fault where
  /-- A host access to an offset the block does not define (R34: "the block defines no narrower access and no other
  offset"); raised by the host port; safe, the spec gives such an access no effect. -/
  | noSuchRegister (off : Nat)
deriving DecidableEq, Repr

/-- Why the model gives a step no meaning. -/
inductive Refusal where
  /-- An instruction with no meaning in the model; raised by no arm of this model; safe. -/
  | notModelled (mnemonic : String)
  /-- A command word with a must-be-zero bit set (R85, U1); raised by the host port; safe, the spec says refuse. -/
  | illegalWord
  /-- A reserved opcode, 0x0 or 0xC to 0xF (R85, U1); raised by the reserved operations; safe. -/
  | reservedOpcode
  /-- Operands outside the domain of R196 (R85, U2); raised by ENC.k and WRREG; safe. -/
  | outsideDomain
  /-- An issue while BUSY = 1 (R34, U4); raised by every operation; safe. -/
  | issueWhileBusy
  /-- A drive of the data line while its direction is IN (R128, U5); raised by TXBYTE and TXBYTE.H; safe. -/
  | driveWhileInput
  /-- A byte of the wire command space that is none of the named codes of R59, put there with no operation that
  says which frame it opens (R59, R100; log 5); raised by the host port; safe. -/
  | unlistedCode
deriving DecidableEq, Repr

/-- STATUS with all fields 0 (R38). -/
def Status.zero : Status :=
  { busy := false, done := false, err := false, ekind := none, ecause := 0, estep := 0 }

/-- RFLD with all fields 0. -/
def rfldZero : Fields := { f1 := false, f0 := false, tens := 0, ones := 0 }

/-- TREG with all bytes 0. -/
def tregZero : TimeRegs :=
  { sec := 0, min := 0, hour := 0, date := 0, month := 0, year := 0, day := 0 }

/-- The state after hardware reset (R38). The registers R38 leaves unspecified hold 0 (DESIGN CHOICE, log 1
and log 2); the environment lists nothing, so what it answers is free (log 7). -/
def State.reset : State :=
  { clk := false, dataOut := false, dataOe := false, rst := false, pwr := true
    txd := 0, rxd := 0, cwr := 0
    res := 0, rfld := rfldZero, treg := tregZero
    resSet := false, rfldSet := false, tregSet := false
    seq := .idle, t := 0, ph := false, evIdx := 0, dly := 0
    status := Status.zero
    cfg := Config.board
    trace := [], pins := [], levels := [], draws := 0, peer := none, host := [], bus := 0 }

end Sys2Proof.Machine
end

