-- ==== Sys2Proof/Machine/Flags.lean ====
section
/-! DEFINITION. STATUS and the other words the host reads: the status of an issue and of a completion (spec/
10_state.md R29, R34; spec/40_pin_primitives.md R132, R133), the EKIND codes (spec/30_encoding.md R103), and the
layouts of STATUS, RES, RFLD, TREG and PINS (R29, R34, R35). -/

namespace Sys2Proof.Machine

/-- The EKIND code of an error kind; 0 is none (R103). -/
def ekindCode : Option ErrKind → BitVec 3
  | none => 0
  | some .outOfRange => 1
  | some .resourceUnavailable => 2
  | some .ioError => 3
  | some .protocolAborted => 4
  | some .handlerFailed => 5

/-- STATUS at issue: BUSY 1, every other field 0 (R34, R132). -/
def Status.issued : Status :=
  { busy := true, done := false, err := false, ekind := none, ecause := 0, estep := 0 }

/-- STATUS after a completion with Ok: DONE 1, every other field 0 (R133). -/
def Status.completed : Status :=
  { busy := false, done := true, err := false, ekind := none, ecause := 0, estep := 0 }

/-- STATUS after a completion with Err(kind, cause, step) (R133). -/
def Status.failed (kind : ErrKind) (f : Failure) : Status :=
  { busy := false, done := true, err := true, ekind := some kind, ecause := f.cause.val
    estep := BitVec.ofNat 16 f.step }

/-- The STATUS word: ESTEP 31:16, ECAUSE 15:8, bit 7 zero, EKIND 6:4, bit 3 zero, ERR, DONE, BUSY (R29). -/
def Status.word (s : Status) : Word :=
  s.estep ++ s.ecause ++ 0#1 ++ ekindCode s.ekind ++ 0#1 ++ BitVec.ofBool s.err ++ BitVec.ofBool s.done ++
    BitVec.ofBool s.busy

/-- The RFLD word: bit 17 `f1`, bit 16 `f0`, bits 11:8 `tens`, bits 3:0 `ones`, the others 0 (R34). -/
def fieldsWord (f : Fields) : Word :=
  0#14 ++ BitVec.ofBool f.f1 ++ BitVec.ofBool f.f0 ++ 0#4 ++ f.tens ++ 0#4 ++ f.ones

/-- A byte register as the host reads it: bits 31:8 read 0 (R34). -/
def byteWord (b : Byte) : Word := 0#24 ++ b

/-- The PINS word: bit 0 CLK, 1 DATA_OUT, 2 DATA_OE, 3 DATA_IN, 4 RST, 5 PWR, the others 0 (R35). -/
def pinsWord (s : State) (dataIn : Bool) : Word :=
  0#26 ++ BitVec.ofBool s.pwr ++ BitVec.ofBool s.rst ++ BitVec.ofBool dataIn ++ BitVec.ofBool s.dataOe ++
    BitVec.ofBool s.dataOut ++ BitVec.ofBool s.clk

/-- TREG[i], i = 0..6 (R32). -/
def tregByte (r : TimeRegs) : Nat → Option Byte
  | 0 => some r.sec
  | 1 => some r.min
  | 2 => some r.hour
  | 3 => some r.date
  | 4 => some r.month
  | 5 => some r.year
  | 6 => some r.day
  | _ => none

end Sys2Proof.Machine
end

