-- ==== Sys2Proof/Machine/Bits.lean ====
section
/-! DEFINITION. Single bits of a byte (spec/00_scope.md R6): the bit a run drives, the bit a sample is ORed
into, the bit the peer latches. -/

namespace Sys2Proof.Machine

/-- Bit `t` of a byte, the level TxBit(t) drives (R142). -/
def bitAt (b : Byte) (t : BitVec 3) : Bool := b.getLsbD t.toNat

/-- `b | (v << i)`: the OR of a level into bit `i` (R143). -/
def orBit (b : Byte) (i : Nat) (v : Bool) : Byte := b ||| ((BitVec.ofBool v).setWidth 8 <<< i)

/-- `b` with bit `i` replaced by `v` (R65: `csh[n] <- DATA_OUT`). -/
def putBit (b : Byte) (i : Nat) (v : Bool) : Byte := orBit (b &&& ~~~(1#8 <<< i)) i v

end Sys2Proof.Machine
end

