-- ==== Sys2Proof/Machine/PeerEcho.lean ====
section
/-! DEFINITION. The reference echo peer PEER-ECHO and its memory (spec/20_memory.md R65): a fixture of the
environment, no part of the block; it reacts to the block's events (log 18). -/

namespace Sys2Proof.Machine

/-- The byte at an address; `none` where nothing was written ("no value", R65). -/
def Memory.read : Memory → Nat → Option Byte
  | [], _ => none
  | (a, b) :: r, x => if x = a then some b else Memory.read r x

/-- Write one byte and keep the addresses strictly rising. -/
def Memory.write : Memory → Nat → Byte → Memory
  | [], x, v => [(x, v)]
  | (a, b) :: r, x, v =>
    if x < a then (x, v) :: (a, b) :: r
    else if x = a then (x, v) :: r
    else (a, b) :: Memory.write r x v

/-- The address of a slot: the kind code for the eight registers (R83), then charge and trickle. -/
def Slot.addr : Slot → Nat
  | .reg k => k.code.toNat
  | .charge => 8
  | .trickle => 9

/-- `lookup(c)` of R65: the kinds first, then the two control codes. -/
def lookup (cfg : Config) (c : Byte) : Sel :=
  if c = cfg.tab.sec.wr then .wr (.reg .sec)
  else if c = cfg.tab.sec.rd then .rd (.reg .sec)
  else if c = cfg.tab.min.wr then .wr (.reg .min)
  else if c = cfg.tab.min.rd then .rd (.reg .min)
  else if c = cfg.tab.hour.wr then .wr (.reg .hour)
  else if c = cfg.tab.hour.rd then .rd (.reg .hour)
  else if c = cfg.tab.date.wr then .wr (.reg .date)
  else if c = cfg.tab.date.rd then .rd (.reg .date)
  else if c = cfg.tab.month.wr then .wr (.reg .month)
  else if c = cfg.tab.month.rd then .rd (.reg .month)
  else if c = cfg.tab.year.wr then .wr (.reg .year)
  else if c = cfg.tab.year.rd then .rd (.reg .year)
  else if c = cfg.tab.day.wr then .wr (.reg .day)
  else if c = cfg.tab.day.rd then .rd (.reg .day)
  else if c = cfg.tab.wp.wr then .wr (.reg .wp)
  else if c = cfg.tab.wp.rd then .rd (.reg .wp)
  else if c = cfg.ctlCharge then .wr .charge
  else if c = cfg.ctlTrickle then .wr .trickle
  else .none

/-- A clock rise in an open frame: the peer takes the level DATA_OUT as the next bit of the command byte, then
of the data byte of a write frame (R65, CLK(1)). -/
def Peer.rise (cfg : Config) (d : Bool) (p : Peer) : Peer :=
  if p.n < 8 then
    if p.n + 1 = 8 then
      { p with csh := putBit p.csh p.n d, n := p.n + 1, sel := lookup cfg (putBit p.csh p.n d) }
    else { p with csh := putBit p.csh p.n d, n := p.n + 1 }
  else
    match p.sel with
    | .wr s =>
      if p.n < 16 then
        if p.n + 1 = 16 then
          { p with dsh := putBit p.dsh (p.n - 8) d, n := p.n + 1,
                   mem := p.mem.write s.addr (putBit p.dsh (p.n - 8) d) }
        else { p with dsh := putBit p.dsh (p.n - 8) d, n := p.n + 1 }
      else p
    | .none => p
    | .rd _ => p

/-- A clock fall in an open read frame: the peer puts out the next bit of the slot; a slot with no value leaves
the level open (R65, CLK(0)). -/
def Peer.fall (p : Peer) : Peer :=
  match p.sel with
  | .rd s => if p.m < 8 then { p with out := (p.mem.read s.addr).map (·.getLsbD p.m), m := p.m + 1 } else p
  | .none => p
  | .wr _ => p

/-- The reaction of PEER-ECHO to one event, with DATA_OUT the level the block drives (R65). A failed event has
no reaction: the premise of R65 is that there is none (log 18). -/
def Peer.react (cfg : Config) (e : Event) (d : Bool) (p : Peer) : Peer :=
  match e with
  | .rst true => { p with act := true, n := 0, m := 0, csh := 0, dsh := 0, sel := .none, out := none }
  | .rst false => { p with act := false, sel := .none, out := none }
  | .clk true => { (if p.act && !p.pclk then p.rise cfg d else p) with pclk := true }
  | .clk false => { (if p.act && p.pclk then p.fall else p) with pclk := false }
  | .dat _ => p
  | .smp _ => p
  | .dir _ => p
  | .dly => p
  | .failed _ => p

end Sys2Proof.Machine
end

