-- ==== Sys2Proof/Machine/Ops.lean ====
section
/-! DEFINITION. The shared operations: the pin oracle and the pin actions (spec/40_pin_primitives.md R120 to
R128), the engine (spec/41_byte_engine.md R140 to R145), frames with their final lowering of reset (spec/
42_transactions.md R162), issue and completion (R132 to R134), and what a failure does (spec/60_exceptions.md
R246), which is this block's form of taking an exception. -/

namespace Sys2Proof.Machine

/-- One event: it goes at the end of the trace, is counted (R134), and the peer reacts to it (R65). -/
def State.emit (e : Event) (s : State) : State :=
  { s with trace := s.trace ++ [e], evIdx := s.evIdx + 1, peer := s.peer.map (Peer.react s.cfg e s.dataOut) }

/-- The answer of the pin oracle, asked once per pin action (R120): the next listed answer, else a free value. -/
def ask (s : State) : PinAnswer × State :=
  match s.pins with
  | a :: r => (a, { s with pins := r })
  | [] => (Config.freeAnswer s.draws, { s with draws := s.draws + 1 })

/-- What a drive that takes effect does to its line (R121, R122, R124, R125). -/
def Drive.apply (d : Drive) (s : State) : State :=
  match d with
  | .clk v => { s with clk := v }
  | .data v => { s with dataOut := v }
  | .rst v => { s with rst := v }
  | .dir x => { s with dataOe := x == .out }

/-- The event of a drive that succeeded (R9). -/
def Drive.event : Drive → Event
  | .clk v => .clk v
  | .data v => .dat v
  | .rst v => .rst v
  | .dir x => .dir x

/-- A driving pin action (R121, R122, R124, R125): ask the oracle; on ok the line takes the value; on a failure it
holds the old or the requested value (R127; log 8), and the code is returned. -/
def drive (d : Drive) (s : State) : State × Option Cause :=
  match ask s with
  | (.ok, s') => ((d.apply s').emit d.event, none)
  | (.fail c took, s') => ((if took then d.apply s' else s').emit (.failed (.drive d)), some c)

/-- PinDriveClk(v) (R121). -/
def pinDriveClk (v : Bool) (s : State) : State × Option Cause := drive (.clk v) s

/-- PinDriveData(v) (R122), defined when DATA_OE = 1; its callers keep R128. -/
def pinDriveData (v : Bool) (s : State) : State × Option Cause := drive (.data v) s

/-- PinDriveRst(v) (R124). -/
def pinDriveRst (v : Bool) (s : State) : State × Option Cause := drive (.rst v) s

/-- PinSetDataDir(d) (R125). -/
def pinSetDataDir (d : Dir) (s : State) : State × Option Cause := drive (.dir d) s

/-- The level PEER-ECHO puts on the data line, if it is the peer and drives it (R65). -/
def peerLevel (s : State) : Option Bool := s.peer.bind Peer.out

/-- The level a sample reads: DATA_OUT while the block drives (R64), else the environment's: the peer's level,
the next listed level, or a free value (R63; log 7). -/
def dataIn (s : State) : Bool × State :=
  if s.dataOe then (s.dataOut, s)
  else
    match peerLevel s with
    | some v => (v, s)
    | none =>
      match s.levels with
      | v :: r => (v, { s with levels := r })
      | [] => (Config.freeLevel s.draws, { s with draws := s.draws + 1 })

/-- PinSampleData() (R123): the level, or the code of the failure. -/
def pinSampleData (s : State) : State × Except Cause Bool :=
  match ask s with
  | (.ok, s') => (State.emit (.smp (dataIn s').1) (dataIn s').2, .ok (dataIn s').1)
  | (.fail c _, s') => (s'.emit (.failed .sample), .error c)

/-- Hold() (R126): the event DLY; the counter is 0 again when the hold is over (R33). It cannot fail. -/
def waitHold (s : State) : State := State.emit .dly { s with dly := 0 }

/-- One step of an operation: the state after it, and the code if its pin action failed. -/
def Micro.run (m : Micro) (s : State) : State × Option Cause :=
  match m with
  | .loadTxd b => ({ s with txd := b }, none)
  | .clearRxd => ({ s with rxd := 0 }, none)
  | .clk v t =>
    match pinDriveClk v { s with t := t } with
    | (s', none) => ({ s' with ph := v }, none)
    | (s', some c) => (s', some c)
  | .hold => (waitHold s, none)
  | .txBit t => pinDriveData (bitAt s.txd t) s
  | .rxBit t =>
    match pinSampleData s with
    | (s', .ok v) => ({ s' with rxd := orBit s'.rxd t.toNat v }, none)
    | (s', .error c) => (s', some c)
  | .rst v => pinDriveRst v s
  | .dir d => pinSetDataDir d s

/-- One cycle of the engine (R140): clock low, hold, the action if `pol` selects the low phase, clock high, hold,
the action if `pol` selects the high phase (R141: `pol = 1` is the low phase). -/
def cycle (pol : Bool) (act : BitVec 3 → Micro) (t : BitVec 3) : List Micro :=
  [.clk false t, .hold] ++ (if pol then [act t] else []) ++ [.clk true t, .hold] ++ (if pol then [] else [act t])

/-- The eight cycle indices in order (R140). -/
def cycleIndices : List (BitVec 3) := [0, 1, 2, 3, 4, 5, 6, 7]

/-- Engine(pol, act): eight cycles, t from 0 to 7 (R140). -/
def engine (pol : Bool) (act : BitVec 3 → Micro) : List Micro := cycleIndices.flatMap (cycle pol act)

/-- The transmit run the document uses: the byte into TXD, then Engine(1, TxBit) (R146, R160). -/
def transmit (b : Byte) : List Micro := .loadTxd b :: engine true .txBit

/-- The receive run the document uses: RXD zeroed, then Engine(0, RxBit) (R148, R161). -/
def receive : List Micro := .clearRxd :: engine false .rxBit

/-- Run the steps in order; the first failure ends them at once, with its code and event index (R144, R134). -/
def runBody : List Micro → State → State × Option Failure
  | [], s => (s, none)
  | m :: ms, s =>
    match m.run s with
    | (s', none) => runBody ms s'
    | (s', some c) => (s', some ⟨c, s.evIdx⟩)

/-- The unconditional final lowering of reset, once, whatever happened before; the first error wins (R162,
R163, R245). -/
def lower (e : Option Failure) (s : State) : State × Option Failure :=
  match pinDriveRst false s with
  | (s', none) => (s', e)
  | (s', some c) => (s', e.or (some ⟨c, s.evIdx⟩))

/-- Run a frame: its steps, then the lowering if it is a transaction (R160 to R162). -/
def Frame.run (f : Frame) (s : State) : State × Option Failure :=
  if f.closes then lower (runBody f.body s).2 (runBody f.body s).1 else runBody f.body s

/-- The bytes received after a frame. -/
def collect (reads : Bool) (got : List Byte) (s : State) : List Byte :=
  if reads then got ++ [s.rxd] else got

/-- Run the frames in order; the first that fails ends the sequence (R222, R224, R246). -/
def runFrames : List Frame → List Byte → State → State × Except Failure (List Byte)
  | [], got, s => (s, .ok got)
  | f :: fs, got, s =>
    match f.run s with
    | (s', none) => runFrames fs (collect f.reads got s') s'
    | (s', some e) => (s', .error e)

/-- The frame of one write transaction (R160). -/
def writeFrame (cmd dat : Byte) : Frame :=
  { body := [.rst true, .dir .out] ++ transmit cmd ++ transmit dat, closes := true, reads := false }

/-- The frame of one read transaction (R161). -/
def readFrame (cmd : Byte) : Frame :=
  { body := [.rst true, .dir .out] ++ transmit cmd ++ [.dir .inp] ++ receive, closes := true, reads := true }

/-- A run or a pin action on its own: nothing closes it (R130, R131, R144, R146). -/
def bareFrame (body : List Micro) (reads : Bool) : Frame := { body := body, closes := false, reads := reads }

/-- What must hold for an operation to begin, beyond BUSY = 0. -/
inductive Guard where
  /-- Nothing. -/
  | always
  /-- DATA_OE = 1: a transmit run on its own (R128, R146; log 11). -/
  | driving
  /-- Never, with the reason (R85, R196). -/
  | never (r : Refusal)
deriving DecidableEq, Repr

/-- The result registers an operation names (R133). -/
inductive Result where
  /-- None. -/
  | nothing
  /-- RES <- RXD (R148, R149, R161). -/
  | res
  /-- RES <- RXD and RFLD <- DEC.k (R211). -/
  | resFields (dec : Kind)
  /-- RES <- the encoded byte (R179 to R186). -/
  | encoded (b : Byte)
  /-- RFLD <- the decoded fields (R187 to R194). -/
  | decoded (f : Fields)
  /-- TREG[0..6] <- the seven bytes received (R223). -/
  | timeRegs
deriving DecidableEq, Repr

/-- An operation spelled out: when it may begin, the kind of its error, its frames, its result. -/
structure Plan where
  guard : Guard
  kind : ErrKind
  frames : List Frame
  result : Result
deriving DecidableEq, Repr

/-- Why an operation does not begin, if so: issued while BUSY (R34, U4), or its guard. -/
def Plan.stop (p : Plan) (s : State) : Option Refusal :=
  if s.status.busy then some .issueWhileBusy
  else
    match p.guard with
    | .always => none
    | .driving => if s.dataOe then none else some .driveWhileInput
    | .never r => some r

/-- Issue: the command word is latched, STATUS cleared with BUSY set, the events counted from 0 (R34, R132, R134).
No event occurs. -/
def issueOp (w : Word) (s : State) : State := { s with cwr := w, status := Status.issued, evIdx := 0 }

/-- The seven bytes of RDTIMER in the order they were read (R223). -/
def timeRegsOf (got : List Byte) : TimeRegs :=
  { sec := got.getD 0 0, min := got.getD 1 0, hour := got.getD 2 0, date := got.getD 3 0
    month := got.getD 4 0, year := got.getD 5 0, day := got.getD 6 0 }

/-- On Ok the result registers the operation names are written (R133). -/
def deliver (r : Result) (got : List Byte) (s : State) : State :=
  match r with
  | .nothing => s
  | .res => { s with res := s.rxd, resSet := true }
  | .resFields k => { s with res := s.rxd, resSet := true, rfld := decodeFields k s.rxd, rfldSet := true }
  | .encoded b => { s with res := b, resSet := true }
  | .decoded f => { s with rfld := f, rfldSet := true }
  | .timeRegs => { s with treg := timeRegsOf got, tregSet := true }

/-- On Err the result registers the operation would have written hold free values (R133, U7; log 9). -/
def spoil (r : Result) (s : State) : State :=
  match r with
  | .nothing => s
  | .res => { s with res := Config.freeByte s.draws, resSet := true, draws := s.draws + 1 }
  | .resFields _ =>
    { s with res := Config.freeByte s.draws, resSet := true, rfld := Config.freeFields s.draws, rfldSet := true
             draws := s.draws + 1 }
  | .encoded _ => { s with res := Config.freeByte s.draws, resSet := true, draws := s.draws + 1 }
  | .decoded _ => { s with rfld := Config.freeFields s.draws, rfldSet := true, draws := s.draws + 1 }
  | .timeRegs => { s with treg := Config.freeTimeRegs s.draws, tregSet := true, draws := s.draws + 1 }

/-- Completion with Ok (R133). -/
def completeOk (p : Plan) (got : List Byte) (s : State) : State :=
  { deliver p.result got s with status := Status.completed, seq := .idle }

/-- Completion with Err: the block's form of taking an exception. STATUS takes the kind, the first failure's code
and event index; BUSY falls, DONE rises; nothing else is saved and control goes back to the host (R133, R246). -/
def completeErr (p : Plan) (f : Failure) (s : State) : State :=
  { spoil p.result s with status := Status.failed p.kind f, seq := .idle }

/-- Completion of an operation with the outcome of its frames (R133). -/
def complete (p : Plan) : State × Except Failure (List Byte) → State
  | (s, .ok got) => completeOk p got s
  | (s, .error f) => completeErr p f s

/-- Run one whole operation: refuse it where it may not begin, else issue it, run its frames and complete it
(R8, R132, R133, R246). Refusals are decided before any event (R245). -/
def perform (i : Instr) (p : Plan) (s : State) : Host.Outcome State Fault Refusal :=
  match p.stop s with
  | some r => .refused r
  | none => .next (complete p (runFrames p.frames [] (issueOp (commandWord s.cfg.tab i) s)))

end Sys2Proof.Machine
end

