-- ==== Sys2Proof/Machine/ByteOps.lean ====
section
/-! DEFINITION. The four byte operations, one engine run each (spec/41_byte_engine.md R146 to R149). -/

namespace Sys2Proof.Machine

/-- The plan of TXBYTE: TXD <- src, Engine(1, TxBit) (R146). -/
def planTxbyte (src : Byte) : Plan :=
  { guard := .driving, kind := .protocolAborted
    frames := [bareFrame (.loadTxd src :: engine true .txBit) false], result := .nothing }

/-- TXBYTE src (R146). -/
def execTxbyte (src : Byte) (s : State) : Host.Outcome State Fault Refusal :=
  perform (.txbyte src) (planTxbyte src) s

/-- The plan of TXBYTE.H: TXD <- src, Engine(0, TxBit) (R147). -/
def planTxbyteH (src : Byte) : Plan :=
  { guard := .driving, kind := .protocolAborted
    frames := [bareFrame (.loadTxd src :: engine false .txBit) false], result := .nothing }

/-- TXBYTE.H src (R147). -/
def execTxbyteH (src : Byte) (s : State) : Host.Outcome State Fault Refusal :=
  perform (.txbyteH src) (planTxbyteH src) s

/-- The plan of RXBYTE: RXD <- 0, Engine(0, RxBit), RES <- RXD (R148). -/
def planRxbyte : Plan :=
  { guard := .always, kind := .protocolAborted
    frames := [bareFrame (.clearRxd :: engine false .rxBit) true], result := .res }

/-- RXBYTE (R148). -/
def execRxbyte (s : State) : Host.Outcome State Fault Refusal := perform .rxbyte planRxbyte s

/-- The plan of RXBYTE.L: RXD <- 0, Engine(1, RxBit), RES <- RXD (R149). -/
def planRxbyteL : Plan :=
  { guard := .always, kind := .protocolAborted
    frames := [bareFrame (.clearRxd :: engine true .rxBit) true], result := .res }

/-- RXBYTE.L (R149). -/
def execRxbyteL (s : State) : Host.Outcome State Fault Refusal := perform .rxbyteL planRxbyteL s

end Sys2Proof.Machine
end

