-- ==== Sys2Proof/Machine/CodecOps.lean ====
section
/-! DEFINITION. The sixteen codec operations ENC.k and DEC.k (spec/43_codec.md R179 to R194): no event, no error;
ENC.k outside the operand domain of R196 is refused (spec/30_encoding.md R85, U2). -/

namespace Sys2Proof.Machine

/-- The guard of ENC.k and WRREG k: the operands lie in the domain of R196. -/
def domainGuard (k : Kind) (f1 f0 : Bool) (tens ones : BitVec 4) : Guard :=
  if inDomain k f1 f0 tens ones then .always else .never .outsideDomain

/-- The plan of ENC.k: RES takes the byte, nothing happens on the lines (R178 to R186). The error kind is never
used, since no pin action is made (R243). -/
def planEnc (k : Kind) (f1 f0 : Bool) (tens ones : BitVec 4) : Plan :=
  { guard := domainGuard k f1 f0 tens ones, kind := .protocolAborted, frames := []
    result := .encoded (encodeFields k f1 f0 tens ones) }

/-- The plan of DEC.k: all four fields of RFLD are written (R187 to R194). The error kind is never used (R243). -/
def planDec (k : Kind) (b : Byte) : Plan :=
  { guard := .always, kind := .protocolAborted, frames := [], result := .decoded (decodeFields k b) }

/-- ENC.SEC (R179). -/
def execEncSec (f1 f0 : Bool) (tens ones : BitVec 4) (s : State) : Host.Outcome State Fault Refusal :=
  perform (.encSec f1 f0 tens ones) (planEnc .sec f1 f0 tens ones) s

/-- DEC.SEC (R187). -/
def execDecSec (b : Byte) (s : State) : Host.Outcome State Fault Refusal :=
  perform (.decSec b) (planDec .sec b) s

/-- ENC.MIN (R180). -/
def execEncMin (f1 f0 : Bool) (tens ones : BitVec 4) (s : State) : Host.Outcome State Fault Refusal :=
  perform (.encMin f1 f0 tens ones) (planEnc .min f1 f0 tens ones) s

/-- DEC.MIN (R188). -/
def execDecMin (b : Byte) (s : State) : Host.Outcome State Fault Refusal :=
  perform (.decMin b) (planDec .min b) s

/-- ENC.HOUR (R181). -/
def execEncHour (f1 f0 : Bool) (tens ones : BitVec 4) (s : State) : Host.Outcome State Fault Refusal :=
  perform (.encHour f1 f0 tens ones) (planEnc .hour f1 f0 tens ones) s

/-- DEC.HOUR (R189). -/
def execDecHour (b : Byte) (s : State) : Host.Outcome State Fault Refusal :=
  perform (.decHour b) (planDec .hour b) s

/-- ENC.DATE (R182). -/
def execEncDate (f1 f0 : Bool) (tens ones : BitVec 4) (s : State) : Host.Outcome State Fault Refusal :=
  perform (.encDate f1 f0 tens ones) (planEnc .date f1 f0 tens ones) s

/-- DEC.DATE (R190). -/
def execDecDate (b : Byte) (s : State) : Host.Outcome State Fault Refusal :=
  perform (.decDate b) (planDec .date b) s

/-- ENC.MONTH (R183). -/
def execEncMonth (f1 f0 : Bool) (tens ones : BitVec 4) (s : State) : Host.Outcome State Fault Refusal :=
  perform (.encMonth f1 f0 tens ones) (planEnc .month f1 f0 tens ones) s

/-- DEC.MONTH (R191). -/
def execDecMonth (b : Byte) (s : State) : Host.Outcome State Fault Refusal :=
  perform (.decMonth b) (planDec .month b) s

/-- ENC.YEAR (R184). -/
def execEncYear (f1 f0 : Bool) (tens ones : BitVec 4) (s : State) : Host.Outcome State Fault Refusal :=
  perform (.encYear f1 f0 tens ones) (planEnc .year f1 f0 tens ones) s

/-- DEC.YEAR (R192). -/
def execDecYear (b : Byte) (s : State) : Host.Outcome State Fault Refusal :=
  perform (.decYear b) (planDec .year b) s

/-- ENC.DAY (R185). -/
def execEncDay (f1 f0 : Bool) (tens ones : BitVec 4) (s : State) : Host.Outcome State Fault Refusal :=
  perform (.encDay f1 f0 tens ones) (planEnc .day f1 f0 tens ones) s

/-- DEC.DAY (R193). -/
def execDecDay (b : Byte) (s : State) : Host.Outcome State Fault Refusal :=
  perform (.decDay b) (planDec .day b) s

/-- ENC.WP (R186). -/
def execEncWp (f1 f0 : Bool) (tens ones : BitVec 4) (s : State) : Host.Outcome State Fault Refusal :=
  perform (.encWp f1 f0 tens ones) (planEnc .wp f1 f0 tens ones) s

/-- DEC.WP (R194). -/
def execDecWp (b : Byte) (s : State) : Host.Outcome State Fault Refusal :=
  perform (.decWp b) (planDec .wp b) s

end Sys2Proof.Machine
end

