-- ==== Sys2Proof/Machine/PinOps.lean ====
section
/-! DEFINITION. SETRST and SETDIR, one pin action each (spec/40_pin_primitives.md R130, R131). -/

namespace Sys2Proof.Machine

/-- The plan of SETRST (R130): its error is IoError (R241). -/
def planSetrst (v : Bool) : Plan :=
  { guard := .always, kind := .ioError, frames := [bareFrame [.rst v] false], result := .nothing }

/-- SETRST v (R130). -/
def execSetrst (v : Bool) (s : State) : Host.Outcome State Fault Refusal :=
  perform (.setrst v) (planSetrst v) s

/-- The plan of SETDIR (R131): its error is IoError (R241). -/
def planSetdir (d : Dir) : Plan :=
  { guard := .always, kind := .ioError, frames := [bareFrame [.dir d] false], result := .nothing }

/-- SETDIR d (R131). -/
def execSetdir (d : Dir) (s : State) : Host.Outcome State Fault Refusal :=
  perform (.setdir d) (planSetdir d) s

end Sys2Proof.Machine
end

