-- ==== Sys2Proof/Machine/RegisterOps.lean ====
section
/-! DEFINITION. WRREG and RDREG, the codec and the command table around a transaction (spec/44_register_ops.md R210,
R211). -/

namespace Sys2Proof.Machine

/-- The plan of WRREG: WRTXN(CMDTAB[k].wr, ENC.k(...)), without writing RES (R210). -/
def planWrreg (cfg : Config) (k : Kind) (f1 f0 : Bool) (tens ones : BitVec 4) : Plan :=
  { guard := domainGuard k f1 f0 tens ones, kind := .protocolAborted
    frames := [writeFrame (cfg.tab.get k).wr (encodeFields k f1 f0 tens ones)], result := .nothing }

/-- WRREG k, f1, f0, tens, ones (R210). -/
def execWrreg (k : Kind) (f1 f0 : Bool) (tens ones : BitVec 4) (s : State) : Host.Outcome State Fault Refusal :=
  perform (.wrreg k f1 f0 tens ones) (planWrreg s.cfg k f1 f0 tens ones) s

/-- The plan of RDREG: RDTXN(CMDTAB[k].rd), then RES and RFLD (R211). -/
def planRdreg (cfg : Config) (k : Kind) : Plan :=
  { guard := .always, kind := .protocolAborted, frames := [readFrame (cfg.tab.get k).rd], result := .resFields k }

/-- RDREG k (R211). -/
def execRdreg (k : Kind) (s : State) : Host.Outcome State Fault Refusal :=
  perform (.rdreg k) (planRdreg s.cfg k) s

end Sys2Proof.Machine
end

