-- ==== Sys2Proof/Machine/ReservedOps.lean ====
section
/-! DEFINITION. The reserved opcodes 0x0 and 0xC to 0xF (spec/30_encoding.md R85: "This spec gives neither case a
behaviour: a model refuses both"). -/

namespace Sys2Proof.Machine

/-- The opcode 0x0: refused (R85, U1). The bits of the word below it do not matter. -/
def execReserved0 (_rest : BitVec 28) (_s : State) : Host.Outcome State Fault Refusal := .refused .reservedOpcode

/-- The opcode 0xC: refused (R85, U1). The bits of the word below it do not matter. -/
def execReservedC (_rest : BitVec 28) (_s : State) : Host.Outcome State Fault Refusal := .refused .reservedOpcode

/-- The opcode 0xD: refused (R85, U1). The bits of the word below it do not matter. -/
def execReservedD (_rest : BitVec 28) (_s : State) : Host.Outcome State Fault Refusal := .refused .reservedOpcode

/-- The opcode 0xE: refused (R85, U1). The bits of the word below it do not matter. -/
def execReservedE (_rest : BitVec 28) (_s : State) : Host.Outcome State Fault Refusal := .refused .reservedOpcode

/-- The opcode 0xF: refused (R85, U1). The bits of the word below it do not matter. -/
def execReservedF (_rest : BitVec 28) (_s : State) : Host.Outcome State Fault Refusal := .refused .reservedOpcode

end Sys2Proof.Machine
end

