-- ==== Sys2Proof/Machine/TimerSequences.lean ====
section
/-! DEFINITION. RSTTIMER and RDTIMER (spec/45_timer_sequences.md R220 to R224). -/

namespace Sys2Proof.Machine

/-- The eleven write transactions of RSTTIMER in order, as (command, data) (R220, R221). -/
def resetWrites (cfg : Config) : List (Byte × Byte) :=
  [(cfg.ctlWp, datWpDis), (cfg.tab.sec.wr, 0x00), (cfg.tab.min.wr, 0x00), (cfg.tab.hour.wr, 0x00),
   (cfg.tab.date.wr, 0x31), (cfg.tab.month.wr, 0x01), (cfg.tab.year.wr, 0x26), (cfg.tab.day.wr, 0x03),
   (cfg.ctlCharge, cfg.datCharge), (cfg.ctlTrickle, cfg.datTrickle), (cfg.ctlWp, datWpEn)]

/-- The plan of RSTTIMER (R220, R222). -/
def planRsttimer (cfg : Config) : Plan :=
  { guard := .always, kind := .protocolAborted
    frames := (resetWrites cfg).map fun w => writeFrame w.1 w.2, result := .nothing }

/-- RSTTIMER (R220). -/
def execRsttimer (s : State) : Host.Outcome State Fault Refusal := perform .rsttimer (planRsttimer s.cfg) s

/-- The seven read codes of RDTIMER in order (R223). -/
def timerReads (cfg : Config) : List Byte :=
  [cfg.tab.sec.rd, cfg.tab.min.rd, cfg.tab.hour.rd, cfg.tab.date.rd, cfg.tab.month.rd, cfg.tab.year.rd,
   cfg.tab.day.rd]

/-- The plan of RDTIMER (R223, R224). -/
def planRdtimer (cfg : Config) : Plan :=
  { guard := .always, kind := .protocolAborted, frames := (timerReads cfg).map readFrame, result := .timeRegs }

/-- RDTIMER (R223). -/
def execRdtimer (s : State) : Host.Outcome State Fault Refusal := perform .rdtimer (planRdtimer s.cfg) s

end Sys2Proof.Machine
end

