-- ==== Sys2Proof/Machine/Transactions.lean ====
section
/-! DEFINITION. The write and the read transaction as operations (spec/42_transactions.md R160, R161). -/

namespace Sys2Proof.Machine

/-- The plan of WRTXN (R160). -/
def planWrtxn (cmd dat : Byte) : Plan :=
  { guard := .always, kind := .protocolAborted, frames := [writeFrame cmd dat], result := .nothing }

/-- WRTXN cmd, dat (R160). -/
def execWrtxn (cmd dat : Byte) (s : State) : Host.Outcome State Fault Refusal :=
  perform (.wrtxn cmd dat) (planWrtxn cmd dat) s

/-- The plan of RDTXN: on Ok, RES <- RXD (R161). -/
def planRdtxn (cmd : Byte) : Plan :=
  { guard := .always, kind := .protocolAborted, frames := [readFrame cmd], result := .res }

/-- RDTXN cmd (R161). -/
def execRdtxn (cmd : Byte) (s : State) : Host.Outcome State Fault Refusal :=
  perform (.rdtxn cmd) (planRdtxn cmd) s

end Sys2Proof.Machine
end

