-- ==== Sys2Proof/Machine/WireCodes.lean ====
section
/-! DEFINITION. The wire command codes of the command table (spec/30_encoding.md R86, R87; spec/20_memory.md R50,
R59), each as the frame it opens: a write code with its data byte is a write frame, a read code is a read frame
(R52 to R54; spec/00_scope.md R7: MemWrite(c, 1, d) is WRTXN(c, d), MemRead(c, 1) is RDTXN(c)). The byte sent is the
table's, whatever its value (log 5). -/

namespace Sys2Proof.Machine

/-- The write frame that the code CMDTAB[SEC].wr opens (R87, R160). -/
def execCmdSecWr (dat : Byte) (s : State) : Host.Outcome State Fault Refusal :=
  perform (.cmdSecWr dat) (planWrtxn s.cfg.tab.sec.wr dat) s

/-- The read frame that the code CMDTAB[SEC].rd opens (R87, R161). -/
def execCmdSecRd (s : State) : Host.Outcome State Fault Refusal :=
  perform .cmdSecRd (planRdtxn s.cfg.tab.sec.rd) s

/-- The write frame that the code CMDTAB[MIN].wr opens (R87, R160). -/
def execCmdMinWr (dat : Byte) (s : State) : Host.Outcome State Fault Refusal :=
  perform (.cmdMinWr dat) (planWrtxn s.cfg.tab.min.wr dat) s

/-- The read frame that the code CMDTAB[MIN].rd opens (R87, R161). -/
def execCmdMinRd (s : State) : Host.Outcome State Fault Refusal :=
  perform .cmdMinRd (planRdtxn s.cfg.tab.min.rd) s

/-- The write frame that the code CMDTAB[HOUR].wr opens (R87, R160). -/
def execCmdHourWr (dat : Byte) (s : State) : Host.Outcome State Fault Refusal :=
  perform (.cmdHourWr dat) (planWrtxn s.cfg.tab.hour.wr dat) s

/-- The read frame that the code CMDTAB[HOUR].rd opens (R87, R161). -/
def execCmdHourRd (s : State) : Host.Outcome State Fault Refusal :=
  perform .cmdHourRd (planRdtxn s.cfg.tab.hour.rd) s

/-- The write frame that the code CMDTAB[DATE].wr opens (R87, R160). -/
def execCmdDateWr (dat : Byte) (s : State) : Host.Outcome State Fault Refusal :=
  perform (.cmdDateWr dat) (planWrtxn s.cfg.tab.date.wr dat) s

/-- The read frame that the code CMDTAB[DATE].rd opens (R87, R161). -/
def execCmdDateRd (s : State) : Host.Outcome State Fault Refusal :=
  perform .cmdDateRd (planRdtxn s.cfg.tab.date.rd) s

/-- The write frame that the code CMDTAB[MONTH].wr opens (R87, R160). -/
def execCmdMonthWr (dat : Byte) (s : State) : Host.Outcome State Fault Refusal :=
  perform (.cmdMonthWr dat) (planWrtxn s.cfg.tab.month.wr dat) s

/-- The read frame that the code CMDTAB[MONTH].rd opens (R87, R161). -/
def execCmdMonthRd (s : State) : Host.Outcome State Fault Refusal :=
  perform .cmdMonthRd (planRdtxn s.cfg.tab.month.rd) s

/-- The write frame that the code CMDTAB[DAY].wr opens (R87, R160). -/
def execCmdDayWr (dat : Byte) (s : State) : Host.Outcome State Fault Refusal :=
  perform (.cmdDayWr dat) (planWrtxn s.cfg.tab.day.wr dat) s

/-- The read frame that the code CMDTAB[DAY].rd opens (R87, R161). -/
def execCmdDayRd (s : State) : Host.Outcome State Fault Refusal :=
  perform .cmdDayRd (planRdtxn s.cfg.tab.day.rd) s

/-- The write frame that the code CMDTAB[YEAR].wr opens (R87, R160). -/
def execCmdYearWr (dat : Byte) (s : State) : Host.Outcome State Fault Refusal :=
  perform (.cmdYearWr dat) (planWrtxn s.cfg.tab.year.wr dat) s

/-- The read frame that the code CMDTAB[YEAR].rd opens (R87, R161). -/
def execCmdYearRd (s : State) : Host.Outcome State Fault Refusal :=
  perform .cmdYearRd (planRdtxn s.cfg.tab.year.rd) s

/-- The write frame that the code CMDTAB[WP].wr opens (R87, R160). -/
def execCmdWpWr (dat : Byte) (s : State) : Host.Outcome State Fault Refusal :=
  perform (.cmdWpWr dat) (planWrtxn s.cfg.tab.wp.wr dat) s

/-- The read frame that the code CMDTAB[WP].rd opens (R87, R161). -/
def execCmdWpRd (s : State) : Host.Outcome State Fault Refusal :=
  perform .cmdWpRd (planRdtxn s.cfg.tab.wp.rd) s

end Sys2Proof.Machine
end

