-- ==== Sys2Proof/Machine/Dispatch.lean ====
section
/-! DEFINITION. One arm per constructor of Instr, each one direct call of its meaning. -/

namespace Sys2Proof.Machine

def exec (i : Instr) (s : State) : Host.Outcome State Fault Refusal :=
  match i with
  | .txbyte src => Sys2Proof.Machine.execTxbyte src s
  | .txbyteH src => Sys2Proof.Machine.execTxbyteH src s
  | .rxbyte => Sys2Proof.Machine.execRxbyte s
  | .rxbyteL => Sys2Proof.Machine.execRxbyteL s
  | .wrtxn cmd dat => Sys2Proof.Machine.execWrtxn cmd dat s
  | .rdtxn cmd => Sys2Proof.Machine.execRdtxn cmd s
  | .wrreg k f1 f0 tens ones => Sys2Proof.Machine.execWrreg k f1 f0 tens ones s
  | .rdreg k => Sys2Proof.Machine.execRdreg k s
  | .encSec f1 f0 tens ones => Sys2Proof.Machine.execEncSec f1 f0 tens ones s
  | .encMin f1 f0 tens ones => Sys2Proof.Machine.execEncMin f1 f0 tens ones s
  | .encHour f1 f0 tens ones => Sys2Proof.Machine.execEncHour f1 f0 tens ones s
  | .encDate f1 f0 tens ones => Sys2Proof.Machine.execEncDate f1 f0 tens ones s
  | .encMonth f1 f0 tens ones => Sys2Proof.Machine.execEncMonth f1 f0 tens ones s
  | .encYear f1 f0 tens ones => Sys2Proof.Machine.execEncYear f1 f0 tens ones s
  | .encDay f1 f0 tens ones => Sys2Proof.Machine.execEncDay f1 f0 tens ones s
  | .encWp f1 f0 tens ones => Sys2Proof.Machine.execEncWp f1 f0 tens ones s
  | .decSec b => Sys2Proof.Machine.execDecSec b s
  | .decMin b => Sys2Proof.Machine.execDecMin b s
  | .decHour b => Sys2Proof.Machine.execDecHour b s
  | .decDate b => Sys2Proof.Machine.execDecDate b s
  | .decMonth b => Sys2Proof.Machine.execDecMonth b s
  | .decYear b => Sys2Proof.Machine.execDecYear b s
  | .decDay b => Sys2Proof.Machine.execDecDay b s
  | .decWp b => Sys2Proof.Machine.execDecWp b s
  | .rsttimer => Sys2Proof.Machine.execRsttimer s
  | .rdtimer => Sys2Proof.Machine.execRdtimer s
  | .setrst v => Sys2Proof.Machine.execSetrst v s
  | .setdir d => Sys2Proof.Machine.execSetdir d s
  | .reserved0 rest => Sys2Proof.Machine.execReserved0 rest s
  | .reservedC rest => Sys2Proof.Machine.execReservedC rest s
  | .reservedD rest => Sys2Proof.Machine.execReservedD rest s
  | .reservedE rest => Sys2Proof.Machine.execReservedE rest s
  | .reservedF rest => Sys2Proof.Machine.execReservedF rest s
  | .cmdSecWr dat => Sys2Proof.Machine.execCmdSecWr dat s
  | .cmdSecRd => Sys2Proof.Machine.execCmdSecRd s
  | .cmdMinWr dat => Sys2Proof.Machine.execCmdMinWr dat s
  | .cmdMinRd => Sys2Proof.Machine.execCmdMinRd s
  | .cmdHourWr dat => Sys2Proof.Machine.execCmdHourWr dat s
  | .cmdHourRd => Sys2Proof.Machine.execCmdHourRd s
  | .cmdDateWr dat => Sys2Proof.Machine.execCmdDateWr dat s
  | .cmdDateRd => Sys2Proof.Machine.execCmdDateRd s
  | .cmdMonthWr dat => Sys2Proof.Machine.execCmdMonthWr dat s
  | .cmdMonthRd => Sys2Proof.Machine.execCmdMonthRd s
  | .cmdDayWr dat => Sys2Proof.Machine.execCmdDayWr dat s
  | .cmdDayRd => Sys2Proof.Machine.execCmdDayRd s
  | .cmdYearWr dat => Sys2Proof.Machine.execCmdYearWr dat s
  | .cmdYearRd => Sys2Proof.Machine.execCmdYearRd s
  | .cmdWpWr dat => Sys2Proof.Machine.execCmdWpWr dat s
  | .cmdWpRd => Sys2Proof.Machine.execCmdWpRd s

end Sys2Proof.Machine
end

