-- ==== Sys2Proof/Machine/Sequencer.lean ====
section
/-! DEFINITION. The sequencer one turn at a time (spec/10_state.md R20, R28, R33): an operation that was issued and not
waited for, one step of its list per turn. The plans are those its whole-operation meaning runs (log 14). -/

namespace Sys2Proof.Machine

/-- A reserved opcode never begins (R85). -/
def planReserved : Plan :=
  { guard := .never .reservedOpcode, kind := .protocolAborted, frames := [], result := .nothing }

/-- The plan of every operation. -/
def planOf (cfg : Config) : Instr → Plan
  | .txbyte src => planTxbyte src
  | .txbyteH src => planTxbyteH src
  | .rxbyte => planRxbyte
  | .rxbyteL => planRxbyteL
  | .wrtxn cmd dat => planWrtxn cmd dat
  | .rdtxn cmd => planRdtxn cmd
  | .wrreg k f1 f0 tens ones => planWrreg cfg k f1 f0 tens ones
  | .rdreg k => planRdreg cfg k
  | .encSec f1 f0 tens ones => planEnc .sec f1 f0 tens ones
  | .encMin f1 f0 tens ones => planEnc .min f1 f0 tens ones
  | .encHour f1 f0 tens ones => planEnc .hour f1 f0 tens ones
  | .encDate f1 f0 tens ones => planEnc .date f1 f0 tens ones
  | .encMonth f1 f0 tens ones => planEnc .month f1 f0 tens ones
  | .encYear f1 f0 tens ones => planEnc .year f1 f0 tens ones
  | .encDay f1 f0 tens ones => planEnc .day f1 f0 tens ones
  | .encWp f1 f0 tens ones => planEnc .wp f1 f0 tens ones
  | .decSec b => planDec .sec b
  | .decMin b => planDec .min b
  | .decHour b => planDec .hour b
  | .decDate b => planDec .date b
  | .decMonth b => planDec .month b
  | .decYear b => planDec .year b
  | .decDay b => planDec .day b
  | .decWp b => planDec .wp b
  | .rsttimer => planRsttimer cfg
  | .rdtimer => planRdtimer cfg
  | .setrst v => planSetrst v
  | .setdir d => planSetdir d
  | .reserved0 _ => planReserved
  | .reservedC _ => planReserved
  | .reservedD _ => planReserved
  | .reservedE _ => planReserved
  | .reservedF _ => planReserved
  | .cmdSecWr dat => planWrtxn cfg.tab.sec.wr dat
  | .cmdSecRd => planRdtxn cfg.tab.sec.rd
  | .cmdMinWr dat => planWrtxn cfg.tab.min.wr dat
  | .cmdMinRd => planRdtxn cfg.tab.min.rd
  | .cmdHourWr dat => planWrtxn cfg.tab.hour.wr dat
  | .cmdHourRd => planRdtxn cfg.tab.hour.rd
  | .cmdDateWr dat => planWrtxn cfg.tab.date.wr dat
  | .cmdDateRd => planRdtxn cfg.tab.date.rd
  | .cmdMonthWr dat => planWrtxn cfg.tab.month.wr dat
  | .cmdMonthRd => planRdtxn cfg.tab.month.rd
  | .cmdDayWr dat => planWrtxn cfg.tab.day.wr dat
  | .cmdDayRd => planRdtxn cfg.tab.day.rd
  | .cmdYearWr dat => planWrtxn cfg.tab.year.wr dat
  | .cmdYearRd => planRdtxn cfg.tab.year.rd
  | .cmdWpWr dat => planWrtxn cfg.tab.wp.wr dat
  | .cmdWpRd => planRdtxn cfg.tab.wp.rd

/-- The sequencer at the first step of an operation (R132). -/
def Running.first (i : Instr) : List Frame → Running
  | [] => { op := i, body := [], closes := false, reads := false, rest := [], err := none, got := [] }
  | f :: fs => { op := i, body := f.body, closes := f.closes, reads := f.reads, rest := fs, err := none, got := [] }

/-- Issue without waiting: a write of CMD (R34, R132). -/
def issue (i : Instr) (s : State) : Host.Outcome State Fault Refusal :=
  match (planOf s.cfg i).stop s with
  | some r => .refused r
  | none =>
    .next { issueOp (commandWord s.cfg.tab i) s with seq := .run (Running.first i (planOf s.cfg i).frames) }

/-- The sequencer after a step of the body that left `ms`: on a failure it skips to the final lowering (R144, R162,
R246). -/
def Running.after (r : Running) (ms : List Micro) : Option Failure → Running
  | none => { r with body := ms }
  | some f => { r with body := [], err := some f }

/-- Do the step `m` and go on to `ms`. -/
def advance (r : Running) (m : Micro) (ms : List Micro) (s : State) : State :=
  { (m.run s).1 with seq := .run (r.after ms ((m.run s).2.map fun c => ⟨c, s.evIdx⟩)) }

/-- One turn in a body: a hold counts DLY down from T_HOLD and ends with its event (R33, R126; log 16); a drive of an
input line has no meaning (R128); every other step is done at once. -/
def bodyTurn (r : Running) (m : Micro) (ms : List Micro) (s : State) : Host.Outcome State Fault Refusal :=
  match m with
  | .hold =>
    if s.dly = 0 then .next { s with dly := s.cfg.tHold }
    else if s.dly = 1 then .next (advance r .hold ms s)
    else .next { s with dly := s.dly - 1 }
  | .txBit t => if s.dataOe then .next (advance r (.txBit t) ms s) else .refused .driveWhileInput
  | .loadTxd b => .next (advance r (.loadTxd b) ms s)
  | .clearRxd => .next (advance r .clearRxd ms s)
  | .clk v t => .next (advance r (.clk v t) ms s)
  | .rxBit t => .next (advance r (.rxBit t) ms s)
  | .rst v => .next (advance r (.rst v) ms s)
  | .dir d => .next (advance r (.dir d) ms s)

/-- The turn of the final lowering (R162). -/
def lowerTurn (r : Running) (s : State) : State :=
  { (lower r.err s).1 with seq := .run { r with closes := false, err := (lower r.err s).2 } }

/-- The turn after a frame: completion with Err after a failure (R246), else the next frame, else completion with Ok
(R133). -/
def frameTurn (r : Running) (s : State) : State :=
  match r.err with
  | some f => completeErr (planOf s.cfg r.op) f s
  | none =>
    match r.rest with
    | [] => completeOk (planOf s.cfg r.op) (collect r.reads r.got s) s
    | f :: fs =>
      { s with seq := .run { r with body := f.body, closes := f.closes, reads := f.reads, rest := fs
                                    got := collect r.reads r.got s } }

/-- One turn of the sequencer; while it is idle nothing happens (R39 (f), R68). -/
def turn (s : State) : Host.Outcome State Fault Refusal :=
  match s.seq with
  | .idle => .next s
  | .run r =>
    match r.body with
    | m :: ms => bodyTurn r m ms s
    | [] => if r.closes then .next (lowerTurn r s) else .next (frameTurn r s)

/-- `n` turns of the sequencer, the host doing nothing. -/
def turns : Nat → State → Host.Outcome State Fault Refusal
  | 0, s => .next s
  | n + 1, s =>
    match turn s with
    | .next s' => turns n s'
    | .fault f => .fault f
    | .refused r => .refused r

end Sys2Proof.Machine
end

