-- ==== Sys2Proof/Machine/HostPort.lean ====
section
/-! DEFINITION. The host's side of the block: the register map (spec/10_state.md R34, R35), hardware reset (spec/
70_reset_and_hazards.md R270, R271), and what a step of the machine is (log 13). -/

namespace Sys2Proof.Machine

/-- The refusal a rejected code stops with (R85). -/
def refusalOf : Reject → Refusal
  | .mustBeZero => .illegalWord
  | .unlistedCode => .unlistedCode

/-- The level of DATA_IN that a read of PINS sees: no sample, no event (R35, U11; log 20). -/
def pinsLevel (s : State) : Bool :=
  if s.dataOe then s.dataOut else (peerLevel s).getD (Config.freeLevel s.draws)

/-- A host read of the register at a byte offset (R34, R35). RES, RFLD and TREG read their reset values before an
operation wrote them (R38; DESIGN CHOICE, log 2); CMD returns a free value (U12); an offset the block does not define
faults (log 19). -/
def hostRead (off : Nat) (s : State) : Host.Outcome State Fault Refusal :=
  if off = 0x00 then .next { s with bus := Config.freeWord s.draws, draws := s.draws + 1 }
  else if off = 0x04 then .next { s with bus := s.status.word }
  else if off = 0x08 then .next { s with bus := byteWord s.res }
  else if off = 0x0C then .next { s with bus := fieldsWord s.rfld }
  else if off = 0x2C then .next { s with bus := pinsWord s (pinsLevel s), draws := s.draws + 1 }
  else if off % 4 = 0 ∧ 0x10 ≤ off then
    match tregByte s.treg ((off - 0x10) / 4) with
    | some b => .next { s with bus := byteWord b }
    | none => .fault (.noSuchRegister off)
  else .fault (.noSuchRegister off)

/-- The offsets of R34: twelve 32-bit registers. -/
def hostOffset (off : Nat) : Bool := decide (off % 4 = 0) && decide (off ≤ 0x2C)

/-- A host write: of CMD, it issues the operation of the word (R34, R132), and a word that is no operation is refused
(R85); of a read-only register, it is ignored; of any other offset, it faults (log 19). -/
def hostWrite (off : Nat) (v : Word) (s : State) : Host.Outcome State Fault Refusal :=
  if off = 0x00 then
    match decode s.cfg.tab (.cw v) with
    | .ok i => issue i s
    | .error r => .refused (refusalOf r)
  else if hostOffset off then .next s
  else .fault (.noSuchRegister off)

/-- PEER-ECHO when the block is reset: its reset line falls if it was high, and its clock line goes low, with no
event of the trace (R271; log 12). -/
def Peer.cut (s : State) (p : Peer) : Peer :=
  { (if s.rst then p.react s.cfg (.rst false) s.dataOut else p) with pclk := false }

/-- Hardware reset, also in the middle of an operation, which then has no completion and no outcome (R270, R271): the
block takes the values of R38; the configuration and the environment stay. -/
def hardReset (s : State) : State :=
  { State.reset with
    cfg := s.cfg, trace := s.trace, pins := s.pins, levels := s.levels, draws := s.draws
    peer := s.peer.map (Peer.cut s), host := s.host, bus := s.bus }

/-- Issue an operation and wait for its completion (R8, R20). -/
def call (c : Code) (s : State) : Host.Outcome State Fault Refusal :=
  match decodeCall s.cfg c with
  | .ok i => exec i s
  | .error r => .refused (refusalOf r)

/-- One action of the host (log 13). While an operation runs that was issued and not waited for, `pass`
takes one turn of the sequencer, and the other actions take none. -/
def hostTurn (a : HostAct) (s : State) : Host.Outcome State Fault Refusal :=
  match a with
  | .call c => call c s
  | .pass => turn s
  | .read off => hostRead off s
  | .write off v => hostWrite off v s
  | .reset => .next (hardReset s)

/-- One step of the machine: the host's next action, or a turn of the sequencer when the host has none. -/
def machineStep (s : State) : Host.Outcome State Fault Refusal :=
  match s.host with
  | [] => turn s
  | a :: rest => hostTurn a { s with host := rest }

/-- The configuration the bits of an opcode-table row are read under: the rows of 8 bits are the suggested
instantiation of CMDTAB (R87; log 4). -/
def tableConfig (nbits : Nat) (cfg : Config) : Config :=
  if nbits ≤ 16 then { cfg with tab := CmdTab.suggested } else cfg

end Sys2Proof.Machine
end

