-- ==== Sys2Proof/Machine/Step.lean ====
section
/-! DEFINITION. One step of the machine, and how an instruction is placed where the next step takes it from. -/

namespace Sys2Proof.Machine

/-- One step (Machine/HostPort.lean says what it is). -/
def step : State → Host.Outcome State Fault Refusal := machineStep

/-- The state whose next step runs the instruction with these bits: the host's next action is to call it (log 13).
A row of 8 bits is a code of the suggested command table, which the state then has (log 4). -/
def State.withFetchWord (s : State) (nbits w : Nat) : State :=
  { s with host := .call (tableCode nbits w) :: s.host, cfg := tableConfig nbits s.cfg }

end Sys2Proof.Machine
end

