-- ==== Sys2Proof/Safety.lean ====
section
/-! DEFINITION. What holds in every reachable state (spec/10_state.md R39) and the environments that claims name:
an oracle that lists answers without failure (spec/40_pin_primitives.md R120), PEER-ECHO as the peer (spec/
20_memory.md R65). -/

namespace Sys2Proof.Machine

/-- The sequencer is idle. -/
def State.Idle (s : State) : Prop := s.seq = .idle

/-- R39 (d): ERR comes with DONE and a kind; without ERR the error fields are 0. -/
def Status.Coherent (x : Status) : Prop :=
  (x.err = true → x.done = true ∧ x.ekind ≠ none) ∧
  (x.err = false → x.ekind = none ∧ x.ecause = 0 ∧ x.estep = 0)

/-- PEER-ECHO keeps its counters in range and its memory in canonical form (R65: `n` in 0..16, `m` in 0..8). -/
structure Peer.Wf (p : Peer) : Prop where
  rises : p.n ≤ 16
  falls : p.m ≤ 8
  mem : p.mem.wf = true

/-- The peer, if PEER-ECHO is attached, is well formed. -/
def State.PeerWf (s : State) : Prop := ∀ p, s.peer = some p → p.Wf

/-- DLY is 0 outside a hold, and never above T_HOLD (R33). -/
def State.HoldOk (s : State) : Prop :=
  s.dly ≤ s.cfg.tHold ∧ (s.dly ≠ 0 → ∃ r ms, s.seq = .run r ∧ r.body = .hold :: ms)

/-- The invariant of R39 (a) to (d), with DLY 0 outside a hold (R33) and the peer well formed (R65). -/
structure State.Inv (s : State) : Prop where
  /-- R39 (a). -/
  power : s.pwr = true
  /-- R39 (b). -/
  busy : s.status.busy = true ↔ ¬ s.Idle
  /-- R39 (c). -/
  exclusive : ¬ (s.status.busy = true ∧ s.status.done = true)
  /-- R39 (d). -/
  errors : s.status.Coherent
  /-- R33. -/
  hold : s.HoldOk
  /-- R65. -/
  peer : s.PeerWf

/-- The block is idle between operations: no operation runs, BUSY is 0 and no hold is counted (R33, R39). -/
structure State.Ready (s : State) : Prop where
  idle : s.seq = .idle
  notBusy : s.status.busy = false
  noHold : s.dly = 0

/-- The eight bits of a byte in wire order, least significant first (R51). -/
def bitsOf (b : Byte) : List Bool :=
  [b.getLsbD 0, b.getLsbD 1, b.getLsbD 2, b.getLsbD 3, b.getLsbD 4, b.getLsbD 5, b.getLsbD 6, b.getLsbD 7]

/-- The trace of a transmit run with the action in the low phase (R150, pol = 1). -/
def txTrace (b : Byte) : List Event :=
  (bitsOf b).flatMap fun v => [.clk false, .dly, .dat v, .clk true, .dly]

/-- The trace of a transmit run with the action in the high phase (R150, pol = 0). -/
def txTraceHigh (b : Byte) : List Event :=
  (bitsOf b).flatMap fun v => [.clk false, .dly, .clk true, .dly, .dat v]

/-- The trace of a receive run with the action in the high phase (R150, pol = 0). -/
def rxTrace (b : Byte) : List Event :=
  (bitsOf b).flatMap fun v => [.clk false, .dly, .clk true, .dly, .smp v]

/-- The trace of a receive run with the action in the low phase (R150, pol = 1). -/
def rxTraceLow (b : Byte) : List Event :=
  (bitsOf b).flatMap fun v => [.clk false, .dly, .smp v, .clk true, .dly]

/-- The 83 events of a write transaction (R160). -/
def writeTrace (cmd dat : Byte) : List Event :=
  [.rst true, .dir .out] ++ txTrace cmd ++ txTrace dat ++ [.rst false]

/-- The 84 events of a read transaction that received `b` (R161). -/
def readTrace (cmd b : Byte) : List Event :=
  [.rst true, .dir .out] ++ txTrace cmd ++ [.dir .inp] ++ rxTrace b ++ [.rst false]

/-- What PEER-ECHO makes of a list of events, with `d` the level on DATA_OUT before them (R65). -/
def Peer.hear (cfg : Config) : (d : Bool) → List Event → Peer → Peer
  | _, [], p => p
  | _, .dat v :: es, p => Peer.hear cfg v es p
  | d, e :: es, p => Peer.hear cfg d es (p.react cfg e d)

/-- `n` answers `ok` of the pin oracle, then `rest` (R120). -/
def okPins (n : Nat) (rest : List PinAnswer) : List PinAnswer := List.replicate n .ok ++ rest

/-- The state after one pin action that succeeded, as a whole operation: the line aside (R130, R131). -/
def pinDone (w : Word) (d : Drive) (rest : List PinAnswer) (s : State) : State :=
  { d.apply s with
    cwr := w, status := Status.completed, seq := .idle, evIdx := 1, pins := rest
    trace := s.trace ++ [d.event], peer := s.peer.map (Peer.react s.cfg d.event s.dataOut) }

/-- The state after a transmit run on its own in which no pin action failed (R145 to R147). -/
def txDone (w : Word) (src : Byte) (es : List Event) (rest : List PinAnswer) (s : State) : State :=
  { s with
    clk := true, dataOut := src.getLsbD 7, txd := src, cwr := w, status := Status.completed, seq := .idle
    t := 7, ph := true, evIdx := 40, dly := 0, pins := rest, trace := s.trace ++ es
    peer := s.peer.map (Peer.hear s.cfg s.dataOut es) }

/-- The state after a receive run on its own in which no pin action failed and `b` was received (R145, R148,
R149); `lv` and `dr` are what is left of the environment's listed levels and how many free values were taken. -/
def rxDone (w : Word) (b : Byte) (es : List Event) (rest : List PinAnswer) (lv : List Bool) (dr : Nat)
    (s : State) : State :=
  { s with
    clk := true, rxd := b, res := b, resSet := true, cwr := w, status := Status.completed, seq := .idle
    t := 7, ph := true, evIdx := 40, dly := 0, pins := rest, trace := s.trace ++ es, levels := lv, draws := dr
    peer := s.peer.map (Peer.hear s.cfg s.dataOut es) }

/-- The state after a write transaction in which no pin action failed (R160, R164). -/
def writeDone (w : Word) (cmd dat : Byte) (rest : List PinAnswer) (s : State) : State :=
  { s with
    clk := true, dataOut := dat.getLsbD 7, dataOe := true, rst := false, txd := dat, cwr := w
    status := Status.completed, seq := .idle, t := 7, ph := true, evIdx := 83, dly := 0, pins := rest
    trace := s.trace ++ writeTrace cmd dat
    peer := s.peer.map (Peer.hear s.cfg s.dataOut (writeTrace cmd dat)) }

/-- The state after a read transaction in which no pin action failed and `b` was received (R161, R164), before the
operation's result registers are written; `lv` and `dr` as in `rxDone`. -/
def readDone (w : Word) (cmd b : Byte) (rest : List PinAnswer) (lv : List Bool) (dr : Nat) (s : State) : State :=
  { s with
    clk := true, dataOut := cmd.getLsbD 7, dataOe := false, rst := false, txd := cmd, rxd := b, cwr := w
    status := Status.completed, seq := .idle, t := 7, ph := true, evIdx := 84, dly := 0, pins := rest
    trace := s.trace ++ readTrace cmd b, levels := lv, draws := dr
    peer := s.peer.map (Peer.hear s.cfg s.dataOut (readTrace cmd b)) }

/-- The wire code CMDTAB[k].wr with its data byte. -/
def wrCode (k : Kind) (dat : Byte) : Instr :=
  match k with
  | .sec => .cmdSecWr dat
  | .min => .cmdMinWr dat
  | .hour => .cmdHourWr dat
  | .date => .cmdDateWr dat
  | .month => .cmdMonthWr dat
  | .year => .cmdYearWr dat
  | .day => .cmdDayWr dat
  | .wp => .cmdWpWr dat

/-- The wire code CMDTAB[k].rd. -/
def rdCode (k : Kind) : Instr :=
  match k with
  | .sec => .cmdSecRd
  | .min => .cmdMinRd
  | .hour => .cmdHourRd
  | .date => .cmdDateRd
  | .month => .cmdMonthRd
  | .year => .cmdYearRd
  | .day => .cmdDayRd
  | .wp => .cmdWpRd

/-- The requested event of a failed pin action, written with its bang (R9). -/
def bang : Event → Event
  | .clk v => .failed (.drive (.clk v))
  | .dat v => .failed (.drive (.data v))
  | .rst v => .failed (.drive (.rst v))
  | .dir d => .failed (.drive (.dir d))
  | .smp _ => .failed .sample
  | .dly => .dly
  | .failed a => .failed a

/-- The index of the pin action number `n` (from 0) in a list of events: holds are no pin actions (R120, R126). -/
def pinIndex : List Event → Nat → Nat
  | [], _ => 0
  | .dly :: es, n => 1 + pinIndex es n
  | _ :: _, 0 => 0
  | _ :: es, n + 1 => 1 + pinIndex es n

/-- A trace that ends with the failure of its pin action number `n` (R144). -/
def cutAt (es : List Event) (n : Nat) : List Event :=
  es.take (pinIndex es n) ++ ((es.drop (pinIndex es n)).take 1).map bang

/-- The events that took effect in a trace ended by the failure of its pin action number `n`: those before it, and the
failed one itself if the line took the requested value (R127). -/
def effectAt (es : List Event) (n : Nat) (took : Bool) : List Event :=
  es.take (pinIndex es n) ++ (if took then (es.drop (pinIndex es n)).take 1 else [])

/-- What one event does to the lines (R39 (e)). -/
def playOne (s : State) : Event → State
  | .clk v => { s with clk := v }
  | .dat v => { s with dataOut := v }
  | .rst v => { s with rst := v }
  | .dir d => { s with dataOe := d == .out }
  | .smp _ => s
  | .dly => s
  | .failed _ => s

/-- What a list of events does to the lines. -/
def play (s : State) (es : List Event) : State := es.foldl playOne s

/-- The four lines of two states are the same. -/
def SameLines (s t : State) : Prop :=
  t.clk = s.clk ∧ t.dataOut = s.dataOut ∧ t.dataOe = s.dataOe ∧ t.rst = s.rst

/-- The byte PEER-ECHO holds at a slot address, if it is attached and the slot has a value (R65). -/
def peerByte (s : State) (a : Nat) : Option Byte := s.peer.bind fun p => p.mem.read a

/-- The eleven transactions of RSTTIMER as command and data bytes (R220, R221). -/
def timerWrites (c : Config) : List (Byte × Byte) :=
  [(c.tab.wp.wr, 0x00), (c.tab.sec.wr, 0x00), (c.tab.min.wr, 0x00), (c.tab.hour.wr, 0x00), (c.tab.date.wr, 0x31),
   (c.tab.month.wr, 0x01), (c.tab.year.wr, 0x26), (c.tab.day.wr, 0x03), (c.ctlCharge, c.datCharge),
   (c.ctlTrickle, c.datTrickle), (c.tab.wp.wr, 0x80)]

/-- The trace of a list of write transactions. -/
def writesTrace (ws : List (Byte × Byte)) : List Event := ws.flatMap fun w => writeTrace w.1 w.2

/-- The trace of a list of read transactions as (command, byte received). -/
def readsTrace (rs : List (Byte × Byte)) : List Event := rs.flatMap fun r => readTrace r.1 r.2

/-- The seven reads of RDTIMER with the bytes received (R223). -/
def timerPairs (c : Config) (g : TimeRegs) : List (Byte × Byte) :=
  [(c.tab.sec.rd, g.sec), (c.tab.min.rd, g.min), (c.tab.hour.rd, g.hour), (c.tab.date.rd, g.date),
   (c.tab.month.rd, g.month), (c.tab.year.rd, g.year), (c.tab.day.rd, g.day)]

/-- The flag bits of a register byte (R84, R90, R92, R97): bit 7 for CH, MODE12 and WP, bit 5 for PM. -/
def flagBits (k : Kind) (f1 f0 : Bool) : Byte :=
  match k with
  | .sec => if f1 then 0x80 else 0
  | .hour => (if f1 then 0x80 else 0) ||| (if f0 then 0x20 else 0)
  | .wp => if f1 then 0x80 else 0
  | .min => 0
  | .date => 0
  | .month => 0
  | .year => 0
  | .day => 0

/-- The packing law: `(tens << 4) | ones | flagbits` (R178). -/
def packed (k : Kind) (f1 f0 : Bool) (tens ones : BitVec 4) : Byte :=
  (tens.setWidth 8 <<< 4) ||| ones.setWidth 8 ||| flagBits k f1 f0

/-- The operation is one write frame with the command byte `cmd` and the data byte `dat`: WRTXN (R160), WRREG inside its
domain (R210), a wire write code (log 5). -/
def WritesFrame (cfg : Config) (i : Instr) (cmd dat : Byte) : Prop :=
  i = .wrtxn cmd dat ∨
  (∃ k f1 f0 tens ones, i = .wrreg k f1 f0 tens ones ∧ inDomain k f1 f0 tens ones = true ∧
    cmd = (cfg.tab.get k).wr ∧ dat = packed k f1 f0 tens ones) ∨
  ∃ k, i = wrCode k dat ∧ cmd = (cfg.tab.get k).wr

/-- The operation is one read frame with the command byte `cmd`: RDTXN (R161), RDREG (R211), a wire read code (log 5). -/
def ReadsFrame (cfg : Config) (i : Instr) (cmd : Byte) : Prop :=
  i = .rdtxn cmd ∨ (∃ k, i = .rdreg k ∧ cmd = (cfg.tab.get k).rd) ∨ ∃ k, i = rdCode k ∧ cmd = (cfg.tab.get k).rd

/-- The tens digit of a register byte as a number: the field of TENS_W[k] bits that starts at bit 4, one bit for a
12-hour byte (R89, R92, R99). -/
def tensNumber (k : Kind) (b : Byte) : Nat :=
  if k = .hour ∧ b.getLsbD 7 = true then b.toNat / 16 % 2 else b.toNat / 16 % 2 ^ tensWidth k

/-- The fields of a register byte by the general layout (R89 to R97, R99). -/
def unpacked (k : Kind) (b : Byte) : Fields :=
  { f1 := (k = .sec ∨ k = .hour ∨ k = .wp) && b.getLsbD 7
    f0 := k = .hour && b.getLsbD 7 && b.getLsbD 5
    tens := BitVec.ofNat 4 (tensNumber k b)
    ones := if k = .wp then 0 else BitVec.ofNat 4 (b.toNat % 16) }

/-- The reserved bits of a register byte, per kind (R90 to R98). -/
def reservedMask (k : Kind) : Byte :=
  match k with
  | .sec => 0x00
  | .min => 0x80
  | .hour => 0x40
  | .date => 0xC0
  | .month => 0xE0
  | .year => 0x00
  | .day => 0xF0
  | .wp => 0x7F

/-- The opcode table's rows of the command word as (match, mask), from spec/opcode_table.json (R82, R85). -/
def commandRows : List (Word × Word) :=
  [(0x11000000, 0xFFFFFF00), (0x10000000, 0xFFFFFF00), (0x12000000, 0xFFFFFFFF), (0x13000000, 0xFFFFFFFF),
   (0x20000000, 0xFF00FF00), (0x30000000, 0xFF00FFFF), (0x40000000, 0xF8FCF0F0), (0x50000000, 0xF8FFFFFF),
   (0x60000000, 0xFFFCF0F0), (0x61000000, 0xFFFCF0F0), (0x62000000, 0xFFFCF0F0), (0x63000000, 0xFFFCF0F0)] ++
  [(0x64000000, 0xFFFCF0F0), (0x65000000, 0xFFFCF0F0), (0x66000000, 0xFFFCF0F0), (0x67000000, 0xFFFCF0F0),
   (0x70000000, 0xFFFFFF00), (0x71000000, 0xFFFFFF00), (0x72000000, 0xFFFFFF00), (0x73000000, 0xFFFFFF00),
   (0x74000000, 0xFFFFFF00), (0x75000000, 0xFFFFFF00), (0x76000000, 0xFFFFFF00), (0x77000000, 0xFFFFFF00)] ++
  [(0x80000000, 0xFFFFFFFF), (0x90000000, 0xFFFFFFFF), (0xA0000000, 0xFEFFFFFF), (0xB0000000, 0xFEFFFFFF),
   (0x00000000, 0xF0000000), (0xC0000000, 0xF0000000), (0xD0000000, 0xF0000000), (0xE0000000, 0xF0000000),
   (0xF0000000, 0xF0000000)]

/-- The kind of an operation's error: IoError for the two bare pin operations, ProtocolAborted for the others (R241,
R242). -/
def errorKind : Instr → ErrKind
  | .setrst _ => .ioError
  | .setdir _ => .ioError
  | _ => .protocolAborted

/-- The operation is a transmit run on its own. -/
def drivesBare (i : Instr) : Prop := ∃ b, i = .txbyte b ∨ i = .txbyteH b

end Sys2Proof.Machine
end

