-- ==== Sys2Proof/Certificates/Slice0/Obligations.lean ====
section
/-! DEFINITION. The statements for the provers. Each docstring names the rule of spec/ it comes from, and the log
entry of a clause that is the model's own choice. -/

open Sys2Proof Sys2Proof.Machine

/-! Encoding. -/

/-- Decoding the code of an operation gives the operation back, for every operation of the command word, and for the
wire codes when the codes of the table are pairwise different (R80 to R87; the wire codes are log 5). -/
def Obligations.DecodeOfEncode : Prop :=
  ∀ (tab : CmdTab) (i : Instr), (i.isCommand = true ∨ tab.codes.Nodup) → decode tab (encode tab i) = .ok i

/-- A command word that decodes is the command word of what it decodes to: no bit of it is ignored (R80 to R85). -/
def Obligations.EncodeOfDecode : Prop :=
  ∀ (tab : CmdTab) (w : Word) (i : Instr), decodeWord w = .ok i → commandWord tab i = w

/-- A word decodes exactly when it matches a row of the opcode table, so a must-be-zero bit rejects it (R82, R85). -/
def Obligations.WordsOfTheTable : Prop :=
  ∀ w : Word, (∃ i, decodeWord w = .ok i) ↔ ∃ row ∈ commandRows, w &&& row.2 = row.1

/-- Words written out from R82 decode to what they stand for (sanity; the wire code under the suggested table, log 4). -/
def Obligations.SampleWords : Prop :=
  decodeWord 0x110000B2 = .ok (.txbyte 0xB2) ∧ decodeWord 0x12000000 = .ok .rxbyte ∧
  decodeWord 0x20800059 = .ok (.wrtxn 0x80 0x59) ∧ decodeWord 0x30810000 = .ok (.rdtxn 0x81) ∧
  decodeWord 0x42030101 = .ok (.wrreg .hour true true 1 1) ∧ decodeWord 0x55000000 = .ok (.rdreg .year) ∧
  decodeWord 0x63000301 = .ok (.encDate false false 3 1) ∧ decodeWord 0x760000F3 = .ok (.decDay 0xF3) ∧
  decodeWord 0x80000000 = .ok .rsttimer ∧ decodeWord 0x90000000 = .ok .rdtimer ∧
  decodeWord 0xA1000000 = .ok (.setrst true) ∧ decodeWord 0xB0000000 = .ok (.setdir .inp) ∧
  decodeWire CmdTab.suggested 0x8D 0 = .ok .cmdYearRd ∧ decodeWord 0xA2000000 = .error .mustBeZero

/-! The step. -/

/-- When the host's next action is to call a code that decodes to `i`, the step is exec of `i` on the state with that
action taken off the host's list (R132; the list is log 13). A bare wire byte outside the table that is a control address runs
as the write transaction of that byte (the model's choice, log 5). -/
def Obligations.StepRunsInstruction : Prop :=
  ∀ (s : State) (c : Code) (rest : List HostAct), s.host = .call c :: rest →
    (∀ i, decode s.cfg.tab c = .ok i → step s = exec i { s with host := rest }) ∧
    (∀ cmd dat, c = .wire cmd dat → cmd ∉ s.cfg.tab.codes → (cmd = s.cfg.ctlCharge ∨ cmd = s.cfg.ctlTrickle) →
      step s = exec (.wrtxn cmd dat) { s with host := rest })

/-- A word with a must-be-zero bit set is refused, called or written to CMD (R85). -/
def Obligations.IllegalWordRefused : Prop :=
  ∀ (s : State) (w : Word) (rest : List HostAct), decodeWord w = .error .mustBeZero →
    (s.host = .call (.cw w) :: rest → step s = .refused .illegalWord) ∧
    (s.host = .write 0 w :: rest → step s = .refused .illegalWord)

/-- No operation begins while BUSY is 1, called or issued by a write of CMD (R34, R275; the wire codes are log 5). -/
def Obligations.BusyRefuses : Prop :=
  ∀ (i : Instr) (s : State), i.wellFormed = true → s.status.busy = true →
    exec i s = .refused .issueWhileBusy ∧ issue i s = .refused .issueWhileBusy

/-- Every well-formed operation issued while idle completes, whatever the environment answers, with exactly one of Ok
and Err; the kind of the error is IoError for the two pin operations and ProtocolAborted for the others, its cause is
never 0 (R8, R120, R241, R242, R283). A transmit run on its own needs DATA_OE = 1 (R128; the wire codes are log 5). -/
def Obligations.AlwaysCompletes : Prop :=
  ∀ (i : Instr) (s : State), i.wellFormed = true → s.status.busy = false → (drivesBare i → s.dataOe = true) →
    ∃ t, exec i s = .next t ∧ t.seq = .idle ∧ t.status.busy = false ∧ t.status.done = true ∧
      ((t.status.err = false ∧ t.status.ekind = none ∧ t.status.ecause = 0 ∧ t.status.estep = 0) ∨
       (t.status.err = true ∧ t.status.ecause ≠ 0 ∧
        t.status.ekind = some (errorKind i)))

/-! The operations, when no pin action fails. -/

/-- SETRST drives the reset line and SETDIR switches the direction of the data line, each in one event; DATA_OUT keeps its value
(R124, R125, R130, R131; the event count afterwards is log 17). -/
def Obligations.PinOperationsComplete : Prop :=
  ∀ (v : Bool) (d : Dir) (s : State) (rest : List PinAnswer), s.status.busy = false → s.pins = okPins 1 rest →
    exec (.setrst v) s = .next (pinDone (0xA#4 ++ 0#3 ++ BitVec.ofBool v ++ 0#24) (.rst v) rest s) ∧
    exec (.setdir d) s = .next (pinDone (0xB#4 ++ 0#3 ++ BitVec.ofBool (d == .out) ++ 0#24) (.dir d) rest s)

/-- TXBYTE and TXBYTE.H drive the eight bits of the byte, least significant first, in the low and in the high phase; the
clock is left high (R51, R145 to R147, R150; T, PH and the event count afterwards are log 15, log 17). -/
def Obligations.TransmitCompletes : Prop :=
  ∀ (src : Byte) (s : State) (rest : List PinAnswer), s.status.busy = false → s.dataOe = true →
    s.pins = okPins 24 rest →
    exec (.txbyte src) s = .next (txDone (0x11#8 ++ 0#16 ++ src) src (txTrace src) rest s) ∧
    exec (.txbyteH src) s = .next (txDone (0x10#8 ++ 0#16 ++ src) src (txTraceHigh src) rest s)

/-- RXBYTE and RXBYTE.L receive some byte, the one whose bits their samples show in order, into RXD and RES, whatever
drives the line (R143, R145, R148, R149, R150; T, PH and the event count afterwards are log 15, log 17). -/
def Obligations.ReceiveCompletes : Prop :=
  ∀ (s : State) (rest : List PinAnswer), s.status.busy = false → s.pins = okPins 24 rest →
    (∃ b lv dr, exec .rxbyte s = .next (rxDone 0x12000000 b (rxTrace b) rest lv dr s)) ∧
    (∃ b lv dr, exec .rxbyteL s = .next (rxDone 0x13000000 b (rxTraceLow b) rest lv dr s))

/-- Without a peer model, with the line released and the environment's levels listed, the byte received is theirs, least
significant bit first (R51, R63, R148, R149; the list is log 7; T, PH and the event count afterwards are log 15, log 17). -/
def Obligations.ReceiveListedLevels : Prop :=
  ∀ (b : Byte) (s : State) (rest : List PinAnswer) (lv : List Bool), s.status.busy = false →
    s.pins = okPins 24 rest → s.dataOe = false → s.peer = none → s.levels = bitsOf b ++ lv →
    exec .rxbyte s = .next (rxDone 0x12000000 b (rxTrace b) rest lv s.draws s) ∧
    exec .rxbyteL s = .next (rxDone 0x13000000 b (rxTraceLow b) rest lv s.draws s)

/-- While the block drives the line, every sample is DATA_OUT, so the byte is 0x00 or 0xFF (R64, R148). -/
def Obligations.ReceiveWhileDriving : Prop :=
  ∀ (s : State) (rest : List PinAnswer), s.status.busy = false → s.pins = okPins 24 rest → s.dataOe = true →
    (∃ t, exec .rxbyte s = .next t ∧ t.res = (if s.dataOut then 0xFF else 0x00) ∧ t.levels = s.levels ∧
      t.trace = s.trace ++ rxTrace (if s.dataOut then 0xFF else 0x00)) ∧
    (∃ t, exec .rxbyteL s = .next t ∧ t.res = (if s.dataOut then 0xFF else 0x00) ∧ t.levels = s.levels ∧
      t.trace = s.trace ++ rxTraceLow (if s.dataOut then 0xFF else 0x00))

/-- WRTXN is one write frame: RST(1), DIR(OUT), the command byte, the data byte, RST(0), and leaves the lines as R164
says (R53, R55, R160, R164; T, PH and the event count afterwards are log 15, log 17). -/
def Obligations.WriteTransactionCompletes : Prop :=
  ∀ (cmd dat : Byte) (s : State) (rest : List PinAnswer), s.status.busy = false → s.pins = okPins 51 rest →
    exec (.wrtxn cmd dat) s = .next (writeDone (0x20#8 ++ cmd ++ 0#8 ++ dat) cmd dat rest s)

/-- RDTXN is one read frame and delivers some byte, the one its samples show, to RXD and RES, whatever drives the line; without a
peer model, with the environment's levels listed, it is their byte, least significant bit first (R51, R54, R63, R161, R164; the list
is log 7; T, PH and the event count afterwards are log 15, log 17). -/
def Obligations.ReadTransactionCompletes : Prop :=
  ∀ (cmd : Byte) (s : State) (rest : List PinAnswer), s.status.busy = false → s.pins = okPins 52 rest →
    (∃ b lv dr, exec (.rdtxn cmd) s = .next
      { readDone (0x30#8 ++ cmd ++ 0#16) cmd b rest lv dr s with res := b, resSet := true }) ∧
    (∀ b lv, s.peer = none → s.levels = bitsOf b ++ lv → exec (.rdtxn cmd) s = .next
      { readDone (0x30#8 ++ cmd ++ 0#16) cmd b rest lv s.draws s with res := b, resSet := true })

/-- WRREG sends the packed byte of its operands with the kind's write code, in one write frame; RES and RFLD are unchanged
(R178, R210; T, PH and the event count afterwards are log 15, log 17). -/
def Obligations.WriteRegisterCompletes : Prop :=
  ∀ (k : Kind) (f1 f0 : Bool) (tens ones : BitVec 4) (s : State) (rest : List PinAnswer), s.status.busy = false →
    s.pins = okPins 51 rest → inDomain k f1 f0 tens ones = true →
    exec (.wrreg k f1 f0 tens ones) s = .next
      (writeDone (0x4#4 ++ 0#1 ++ k.code ++ 0#6 ++ BitVec.ofBool f1 ++ BitVec.ofBool f0 ++ 0#4 ++ tens ++ 0#4 ++ ones)
        (s.cfg.tab.get k).wr (packed k f1 f0 tens ones) rest s)

/-- RDREG reads with the kind's read code, in one read frame, and delivers the byte to RES and its fields to RFLD, whatever
drives the line (R89, R99, R211; T, PH and the event count afterwards are log 15, log 17). -/
def Obligations.ReadRegisterCompletes : Prop :=
  ∀ (k : Kind) (s : State) (rest : List PinAnswer), s.status.busy = false → s.pins = okPins 52 rest →
    ∃ b lv dr, exec (.rdreg k) s = .next
      { readDone (0x5#4 ++ 0#1 ++ k.code ++ 0#24) (s.cfg.tab.get k).rd b rest lv dr s with
        res := b, resSet := true, rfld := unpacked k b, rfldSet := true }

/-- A wire write code opens the write frame of its table entry and its data byte (R53, R87, R160; that a wire code runs as
the frame it opens is the model's choice, log 5; T, PH and the event count afterwards are log 15, log 17). -/
def Obligations.WriteCodesComplete : Prop :=
  ∀ (k : Kind) (dat : Byte) (s : State) (rest : List PinAnswer), s.status.busy = false → s.pins = okPins 51 rest →
    exec (wrCode k dat) s = .next
      (writeDone (0x20#8 ++ (s.cfg.tab.get k).wr ++ 0#8 ++ dat) (s.cfg.tab.get k).wr dat rest s)

/-- A wire read code opens the read frame of its table entry (R54, R87, R161; log 5; T, PH and the event count afterwards are log
15, log 17). -/
def Obligations.ReadCodesComplete : Prop :=
  ∀ (k : Kind) (s : State) (rest : List PinAnswer), s.status.busy = false → s.pins = okPins 52 rest →
    ∃ b lv dr, exec (rdCode k) s = .next
      { readDone (0x30#8 ++ (s.cfg.tab.get k).rd ++ 0#16) (s.cfg.tab.get k).rd b rest lv dr s with
        res := b, resSet := true }

/-- ENC.k inside its domain writes the packed byte to RES, with no event, and changes nothing else but the command word, STATUS
and the event count (R175, R178 to R186; the event count afterwards is log 17). -/
def Obligations.EncodeCompletes : Prop :=
  ∀ (k : Kind) (f1 f0 : Bool) (tens ones : BitVec 4) (s : State), s.status.busy = false →
    inDomain k f1 f0 tens ones = true →
    exec (encOf k f1 f0 tens ones) s = .next
      { s with
        cwr := 0x6#4 ++ 0#1 ++ k.code ++ 0#6 ++ BitVec.ofBool f1 ++ BitVec.ofBool f0 ++ 0#4 ++ tens ++ 0#4 ++ ones
        status := Status.completed, seq := .idle, evIdx := 0
        res := packed k f1 f0 tens ones, resSet := true }

/-- DEC.k writes all four fields of RFLD from any byte, ignoring its reserved bits, with no event (R89 to R99, R175, R187 to
R194; the event count afterwards is log 17). -/
def Obligations.DecodeCompletes : Prop :=
  ∀ (k : Kind) (b : Byte) (s : State), s.status.busy = false →
    exec (decOf k b) s = .next
      { s with
        cwr := 0x7#4 ++ 0#1 ++ k.code ++ 0#16 ++ b
        status := Status.completed, seq := .idle, evIdx := 0, rfld := unpacked k b, rfldSet := true }

/-- RSTTIMER is its eleven write frames in order, 913 events (R220, R221; T, PH and the event count afterwards are log 15, log
17). -/
def Obligations.ResetTimerCompletes : Prop :=
  ∀ (s : State) (rest : List PinAnswer), s.status.busy = false → s.pins = okPins 561 rest →
    exec .rsttimer s = .next
      { s with
        clk := true, dataOut := true, dataOe := true, rst := false, txd := 0x80, cwr := 0x80000000
        status := Status.completed, seq := .idle, t := 7, ph := true, evIdx := 913, dly := 0, pins := rest
        trace := s.trace ++ writesTrace (timerWrites s.cfg)
        peer := s.peer.map (Peer.hear s.cfg s.dataOut (writesTrace (timerWrites s.cfg))) }

/-- RDTIMER is its seven read frames in order, 588 events, and puts the seven bytes received into TREG[0..6], whatever drives
the line; RES and RFLD are unchanged (R223; T, PH and the event count afterwards are log 15, log 17). -/
def Obligations.ReadTimerCompletes : Prop :=
  ∀ (s : State) (rest : List PinAnswer), s.status.busy = false → s.pins = okPins 364 rest →
    ∃ g lv dr, exec .rdtimer s = .next
      { s with
        clk := true, dataOut := s.cfg.tab.day.rd.getLsbD 7, dataOe := false, rst := false, txd := s.cfg.tab.day.rd
        rxd := g.day, cwr := 0x90000000, status := Status.completed, seq := .idle, t := 7, ph := true, evIdx := 588
        dly := 0, pins := rest, trace := s.trace ++ readsTrace (timerPairs s.cfg g), levels := lv, draws := dr
        peer := s.peer.map (Peer.hear s.cfg s.dataOut (readsTrace (timerPairs s.cfg g)))
        treg := g, tregSet := true }

/-- Without a peer model, with the environment's levels listed, RDTIMER puts their seven bytes into TREG in the read order
(R32, R51, R223; the list is log 7). -/
def Obligations.ReadTimerListedLevels : Prop :=
  ∀ (g : TimeRegs) (s : State) (rest : List PinAnswer) (lv : List Bool), s.status.busy = false →
    s.pins = okPins 364 rest → s.peer = none →
    s.levels = bitsOf g.sec ++ bitsOf g.min ++ bitsOf g.hour ++ bitsOf g.date ++ bitsOf g.month ++ bitsOf g.year ++
      bitsOf g.day ++ lv →
    ∃ t, exec .rdtimer s = .next t ∧ t.treg = g ∧ t.tregSet = true ∧ t.status = Status.completed ∧ t.levels = lv ∧
      t.res = s.res ∧ t.rfld = s.rfld

/-! Where an operation stops. -/

/-- A reserved opcode is refused, whatever the rest of its word: called, in every state; written to CMD while BUSY is 0, by the same
name (R85). -/
def Obligations.ReservedRefused : Prop :=
  ∀ (r : BitVec 28) (s : State) (i : Instr),
    (i = .reserved0 r ∨ i = .reservedC r ∨ i = .reservedD r ∨ i = .reservedE r ∨ i = .reservedF r) →
    exec i s = .refused .reservedOpcode ∧ (s.status.busy = false → issue i s = .refused .reservedOpcode ∧
      hostWrite 0 (commandWord s.cfg.tab i) s = .refused .reservedOpcode)

/-- A transmit run on its own while the direction is IN is refused before any event, called or issued (R128, R146, R147; that
it stops before event 0 is read from R146's precondition, log 11). -/
def Obligations.TransmitOnInputRefused : Prop :=
  ∀ (i : Instr) (s : State), drivesBare i → s.status.busy = false → s.dataOe = false →
    exec i s = .refused .driveWhileInput ∧ issue i s = .refused .driveWhileInput

/-- The operand domain is R196's table, and ENC.k and WRREG k outside it are refused, called or issued by a write of
CMD (R85, R196). -/
def Obligations.OutsideDomainRefused : Prop :=
  (∀ (k : Kind) (f1 f0 : Bool) (tens ones : BitVec 4) (s : State), s.status.busy = false →
    inDomain k f1 f0 tens ones = false →
    exec (encOf k f1 f0 tens ones) s = .refused .outsideDomain ∧
    exec (.wrreg k f1 f0 tens ones) s = .refused .outsideDomain ∧
    issue (encOf k f1 f0 tens ones) s = .refused .outsideDomain ∧
    issue (.wrreg k f1 f0 tens ones) s = .refused .outsideDomain) ∧
  (∀ (f1 f0 : Bool) (tens ones : BitVec 4),
    (inDomain .sec f1 f0 tens ones = true ↔ tens.toNat ≤ 7 ∧ f0 = false) ∧
    (inDomain .min f1 f0 tens ones = true ↔ tens.toNat ≤ 7 ∧ f1 = false ∧ f0 = false) ∧
    (inDomain .hour f1 f0 tens ones = true ↔
      (f1 = false ∧ tens.toNat ≤ 3 ∧ f0 = false) ∨ (f1 = true ∧ tens.toNat ≤ 1)) ∧
    (inDomain .date f1 f0 tens ones = true ↔ tens.toNat ≤ 3 ∧ f1 = false ∧ f0 = false) ∧
    (inDomain .month f1 f0 tens ones = true ↔ tens.toNat ≤ 1 ∧ f1 = false ∧ f0 = false) ∧
    (inDomain .year f1 f0 tens ones = true ↔ f1 = false ∧ f0 = false) ∧
    (inDomain .day f1 f0 tens ones = true ↔ tens.toNat = 0 ∧ f1 = false ∧ f0 = false) ∧
    (inDomain .wp f1 f0 tens ones = true ↔ tens.toNat = 0 ∧ ones.toNat = 0 ∧ f0 = false))

/-! Failures. -/

/-- SETRST and SETDIR whose pin action fails end with IoError, the code and step 0; the line holds the old or the requested
value (R127, R130, R131, R241; that PEER-ECHO does not react to the failed event is log 18, the event count afterwards is log 17). -/
def Obligations.PinOperationFails : Prop :=
  ∀ (v : Bool) (d : Dir) (c : Cause) (took : Bool) (s : State) (rest : List PinAnswer), s.status.busy = false →
    s.pins = .fail c took :: rest →
    exec (.setrst v) s = .next
      { s with
        rst := if took then v else s.rst, cwr := 0xA#4 ++ 0#3 ++ BitVec.ofBool v ++ 0#24
        status := Status.failed .ioError ⟨c, 0⟩, seq := .idle, evIdx := 1, pins := rest
        trace := s.trace ++ [.failed (.drive (.rst v))] } ∧
    exec (.setdir d) s = .next
      { s with
        dataOe := if took then d == .out else s.dataOe, cwr := 0xB#4 ++ 0#3 ++ BitVec.ofBool (d == .out) ++ 0#24
        status := Status.failed .ioError ⟨c, 0⟩, seq := .idle, evIdx := 1, pins := rest
        trace := s.trace ++ [.failed (.drive (.dir d))] }

/-- A transmit run on its own whose pin action number `n` fails ends there with ProtocolAborted, the code and the event's index;
no further event happens and the lines stay as the events left them (R127, R134, R144, R146, R147, R242). -/
def Obligations.TransmitFails : Prop :=
  ∀ (src : Byte) (n : Nat) (c : Cause) (took : Bool) (s : State) (rest : List PinAnswer), s.status.busy = false →
    s.dataOe = true → n < 24 → s.pins = okPins n (.fail c took :: rest) →
    (∃ t, exec (.txbyte src) s = .next t ∧ t.status = Status.failed .protocolAborted ⟨c, pinIndex (txTrace src) n⟩ ∧
      t.trace = s.trace ++ cutAt (txTrace src) n ∧ SameLines (play s (effectAt (txTrace src) n took)) t ∧
      t.pins = rest ∧ t.res = s.res) ∧
    (∃ t, exec (.txbyteH src) s = .next t ∧
      t.status = Status.failed .protocolAborted ⟨c, pinIndex (txTraceHigh src) n⟩ ∧
      t.trace = s.trace ++ cutAt (txTraceHigh src) n ∧ SameLines (play s (effectAt (txTraceHigh src) n took)) t ∧
      t.pins = rest ∧ t.res = s.res)

/-- A receive run on its own, RXBYTE or RXBYTE.L, whose pin action number `n` fails ends there with ProtocolAborted; RXD holds
the bits sampled before the failure with zeros above, for RXBYTE.L, which samples between the two clock drives, one bit as soon as
the second pin action of a cycle succeeded. Without a peer model, with the line released (R134, R143, R144, R148, R149, R242; the
levels are listed, log 7). -/
def Obligations.ReceiveFails : Prop :=
  ∀ (b : Byte) (n : Nat) (c : Cause) (took : Bool) (s : State) (rest : List PinAnswer) (lv : List Bool),
    s.status.busy = false → n < 24 → s.pins = okPins n (.fail c took :: rest) → s.dataOe = false → s.peer = none →
    s.levels = bitsOf b ++ lv →
    (∃ t, exec .rxbyte s = .next t ∧ t.status = Status.failed .protocolAborted ⟨c, pinIndex (rxTrace b) n⟩ ∧
      t.trace = s.trace ++ cutAt (rxTrace b) n ∧ SameLines (play s (effectAt (rxTrace b) n took)) t ∧
      t.rxd = BitVec.ofNat 8 (b.toNat % 2 ^ (n / 3)) ∧ t.pins = rest) ∧
    (∃ t, exec .rxbyteL s = .next t ∧ t.status = Status.failed .protocolAborted ⟨c, pinIndex (rxTraceLow b) n⟩ ∧
      t.trace = s.trace ++ cutAt (rxTraceLow b) n ∧ SameLines (play s (effectAt (rxTraceLow b) n took)) t ∧
      t.rxd = BitVec.ofNat 8 (b.toNat % 2 ^ ((n + 1) / 3)) ∧ t.pins = rest)

/-- A write frame, run by WRTXN, by WRREG or by a wire write code, whose pin action number `n` before the last fails still lowers
reset once, reports the first error with its code and event index whatever the lowering answers, and after a lowering that succeeds
RST is 0 (R127, R134, R160, R162, R165, R210, R242, R245; the wire codes are log 5; the event count afterwards is log 17). -/
def Obligations.WriteTransactionFails : Prop :=
  ∀ (i : Instr) (cmd dat : Byte) (n : Nat) (c : Cause) (took : Bool) (a : PinAnswer) (s : State) (rest : List PinAnswer),
    WritesFrame s.cfg i cmd dat → s.status.busy = false → n < 50 → s.pins = okPins n (.fail c took :: a :: rest) →
    ∃ t, exec i s = .next t ∧
      t.status = Status.failed .protocolAborted ⟨c, pinIndex (writeTrace cmd dat) n⟩ ∧ t.pins = rest ∧
      t.evIdx = pinIndex (writeTrace cmd dat) n + 2 ∧
      (a = .ok → t.trace = s.trace ++ cutAt (writeTrace cmd dat) n ++ [.rst false] ∧
        SameLines (play s (effectAt (writeTrace cmd dat) n took ++ [.rst false])) t) ∧
      (a ≠ .ok → t.trace = s.trace ++ cutAt (writeTrace cmd dat) n ++ [.failed (.drive (.rst false))])

/-- A frame of which only the final lowering fails, run by WRTXN, RDTXN, WRREG, RDREG or a wire code, ends with Err, at the index
of that event, 82 for a write and 83 for a read (R162, R163, R210, R211; the wire codes are log 5). -/
def Obligations.LoweringFails : Prop :=
  ∀ (i : Instr) (cmd dat : Byte) (c : Cause) (took : Bool) (s : State) (rest : List PinAnswer), s.status.busy = false →
    (WritesFrame s.cfg i cmd dat → s.pins = okPins 50 (.fail c took :: rest) →
      ∃ t, exec i s = .next t ∧ t.status = Status.failed .protocolAborted ⟨c, 82⟩ ∧
        t.trace = s.trace ++ cutAt (writeTrace cmd dat) 50 ∧ t.rst = (if took then false else true)) ∧
    (ReadsFrame s.cfg i cmd → s.pins = okPins 51 (.fail c took :: rest) →
      ∃ t b, exec i s = .next t ∧ t.status = Status.failed .protocolAborted ⟨c, 83⟩ ∧
        t.trace = s.trace ++ cutAt (readTrace cmd b) 51 ∧ t.rst = (if took then false else true))

/-- A read frame, run by RDTXN, by RDREG or by a wire read code, whose pin action number `n` before the last fails still lowers
reset once and reports the first error whatever the lowering answers (R127, R134, R161, R162, R165, R211, R242, R245; the wire
codes are log 5; the event count afterwards is log 17). -/
def Obligations.ReadTransactionFails : Prop :=
  ∀ (i : Instr) (cmd : Byte) (n : Nat) (c : Cause) (took : Bool) (a : PinAnswer) (s : State) (rest : List PinAnswer),
    ReadsFrame s.cfg i cmd → s.status.busy = false → n < 51 → s.pins = okPins n (.fail c took :: a :: rest) →
    ∃ t b, exec i s = .next t ∧
      t.status = Status.failed .protocolAborted ⟨c, pinIndex (readTrace cmd b) n⟩ ∧ t.pins = rest ∧
      t.evIdx = pinIndex (readTrace cmd b) n + 2 ∧
      (a = .ok → t.trace = s.trace ++ cutAt (readTrace cmd b) n ++ [.rst false] ∧
        SameLines (play s (effectAt (readTrace cmd b) n took ++ [.rst false])) t) ∧
      (a ≠ .ok → t.trace = s.trace ++ cutAt (readTrace cmd b) n ++ [.failed (.drive (.rst false))])

/-- RSTTIMER whose transaction `i` (from 0) fails, at its pin action number `n` before its lowering, or at the lowering alone: the
transactions before it happened whole, those after it do not happen, reset is lowered once whatever that answers, the first error is
reported, and the step is 83 per transaction before plus the event's index in it, 82 for the lowering (R162, R163, R220, R222, R245,
R246). -/
def Obligations.ResetTimerFails : Prop :=
  ∀ (i : Nat) (w : Byte × Byte) (c : Cause) (took : Bool) (s : State) (rest : List PinAnswer),
    s.status.busy = false → (timerWrites s.cfg)[i]? = some w →
    (∀ (n : Nat) (a : PinAnswer), n < 50 → s.pins = okPins (51 * i + n) (.fail c took :: a :: rest) →
      ∃ t, exec .rsttimer s = .next t ∧
        t.status = Status.failed .protocolAborted ⟨c, 83 * i + pinIndex (writeTrace w.1 w.2) n⟩ ∧
        (a = .ok → t.rst = false ∧
          t.trace = s.trace ++ writesTrace ((timerWrites s.cfg).take i) ++ cutAt (writeTrace w.1 w.2) n ++ [.rst false]) ∧
        (a ≠ .ok → t.trace = s.trace ++ writesTrace ((timerWrites s.cfg).take i) ++ cutAt (writeTrace w.1 w.2) n ++
          [.failed (.drive (.rst false))]) ∧
        t.pins = rest ∧ t.res = s.res ∧ t.rfld = s.rfld ∧ t.treg = s.treg) ∧
    (s.pins = okPins (51 * i + 50) (.fail c took :: rest) →
      ∃ t, exec .rsttimer s = .next t ∧ t.status = Status.failed .protocolAborted ⟨c, 83 * i + 82⟩ ∧
        t.rst = (if took then false else true) ∧
        t.trace = s.trace ++ writesTrace ((timerWrites s.cfg).take i) ++ cutAt (writeTrace w.1 w.2) 50 ∧
        t.pins = rest ∧ t.res = s.res ∧ t.rfld = s.rfld ∧ t.treg = s.treg)

/-- RDTIMER whose transaction `i` (from 0) fails, at its pin action number `n` before its lowering, or at the lowering alone: no
later transaction runs, reset is lowered once whatever that answers, the first error is reported, and the step is 84 per
transaction before plus the event's index in it, 83 for the lowering; what TREG then holds is not stated (R162, R163, R223, R224,
R245, R246). -/
def Obligations.ReadTimerFails : Prop :=
  ∀ (i : Nat) (c : Cause) (took : Bool) (s : State) (rest : List PinAnswer), s.status.busy = false → i < 7 →
    (∀ (n : Nat) (a : PinAnswer), n < 51 → s.pins = okPins (52 * i + n) (.fail c took :: a :: rest) →
      ∃ t g r, exec .rdtimer s = .next t ∧ (timerPairs s.cfg g)[i]? = some r ∧
        t.status = Status.failed .protocolAborted ⟨c, 84 * i + pinIndex (readTrace r.1 r.2) n⟩ ∧
        (a = .ok → t.rst = false ∧
          t.trace = s.trace ++ readsTrace ((timerPairs s.cfg g).take i) ++ cutAt (readTrace r.1 r.2) n ++ [.rst false]) ∧
        (a ≠ .ok → t.trace = s.trace ++ readsTrace ((timerPairs s.cfg g).take i) ++ cutAt (readTrace r.1 r.2) n ++
          [.failed (.drive (.rst false))]) ∧
        t.pins = rest ∧ t.res = s.res ∧ t.rfld = s.rfld) ∧
    (s.pins = okPins (52 * i + 51) (.fail c took :: rest) →
      ∃ t g r, exec .rdtimer s = .next t ∧ (timerPairs s.cfg g)[i]? = some r ∧
        t.status = Status.failed .protocolAborted ⟨c, 84 * i + 83⟩ ∧ t.rst = (if took then false else true) ∧
        t.trace = s.trace ++ readsTrace ((timerPairs s.cfg g).take i) ++ cutAt (readTrace r.1 r.2) 51 ∧
        t.pins = rest ∧ t.res = s.res ∧ t.rfld = s.rfld)

/-! Frames: what an operation leaves unchanged whenever it gives a next state, however the environment answered. -/

/-- No operation writes PWR or the configuration, touches the host's list or the bus, or takes an event out of the trace; it
counts the events it adds from 0, and leaves its command word in CWR (R24, R27, R36, R60, R134; the word a wire code leaves is log
5, that the count stays after completion is log 17). -/
def Obligations.OperationFrame : Prop :=
  ∀ (i : Instr) (s t : State), exec i s = .next t →
    t.pwr = s.pwr ∧ t.cfg = s.cfg ∧ t.host = s.host ∧ t.bus = s.bus ∧ t.cwr = commandWord s.cfg.tab i ∧
    ∃ es, t.trace = s.trace ++ es ∧ t.evIdx = es.length

/-- SETRST and SETDIR change no data or result register of the block, not T, PH or DLY, no line but their own, and no byte of the
peer's memory (R23, R22, R130, R131). -/
def Obligations.PinFrame : Prop :=
  ∀ (v : Bool) (d : Dir) (s t : State),
    (exec (.setrst v) s = .next t → t.clk = s.clk ∧ t.dataOut = s.dataOut ∧ t.dataOe = s.dataOe) ∧
    (exec (.setdir d) s = .next t → t.clk = s.clk ∧ t.dataOut = s.dataOut ∧ t.rst = s.rst) ∧
    (exec (.setrst v) s = .next t ∨ exec (.setdir d) s = .next t →
      t.txd = s.txd ∧ t.rxd = s.rxd ∧ t.res = s.res ∧ t.rfld = s.rfld ∧ t.treg = s.treg ∧ t.resSet = s.resSet ∧
      t.rfldSet = s.rfldSet ∧ t.tregSet = s.tregSet ∧ t.t = s.t ∧ t.ph = s.ph ∧ t.dly = s.dly ∧
      t.levels = s.levels ∧ ∀ a, peerByte t a = peerByte s a)

/-- TXBYTE and TXBYTE.H change no result register, not RXD, not the direction and not the reset line; they leave the byte in TXD
(R25, R30 to R32, R39, R145 to R147). -/
def Obligations.TransmitFrame : Prop :=
  ∀ (src : Byte) (s t : State), exec (.txbyte src) s = .next t ∨ exec (.txbyteH src) s = .next t →
    t.txd = src ∧ t.rxd = s.rxd ∧ t.res = s.res ∧ t.rfld = s.rfld ∧ t.treg = s.treg ∧ t.resSet = s.resSet ∧
    t.rfldSet = s.rfldSet ∧ t.tregSet = s.tregSet ∧ t.dataOe = s.dataOe ∧ t.rst = s.rst ∧ t.levels = s.levels

/-- RXBYTE and RXBYTE.L change no data or result register of the block but RXD and RES: not TXD, RFLD or TREG; and of the lines
only the clock. Of CWR, STATUS, T, PH and the event count, which each run changes, nothing is said here (R26, R30, R39, R145,
R148, R149). -/
def Obligations.ReceiveFrame : Prop :=
  ∀ (s t : State), exec .rxbyte s = .next t ∨ exec .rxbyteL s = .next t →
    t.txd = s.txd ∧ t.rfld = s.rfld ∧ t.treg = s.treg ∧ t.rfldSet = s.rfldSet ∧ t.tregSet = s.tregSet ∧
    t.dataOut = s.dataOut ∧ t.dataOe = s.dataOe ∧ t.rst = s.rst

/-- WRTXN, WRREG, the wire write codes and RSTTIMER write no result register and not RXD (R30 to R32, R160, R210, R220; that a wire
code runs as the frame it opens is log 5). -/
def Obligations.WriteFrame : Prop :=
  ∀ (i : Instr) (s t : State),
    ((∃ c d, i = .wrtxn c d) ∨ (∃ k f1 f0 tens ones, i = .wrreg k f1 f0 tens ones) ∨ (∃ k d, i = wrCode k d) ∨
      i = .rsttimer) → exec i s = .next t →
    t.rxd = s.rxd ∧ t.res = s.res ∧ t.rfld = s.rfld ∧ t.treg = s.treg ∧ t.resSet = s.resSet ∧
    t.rfldSet = s.rfldSet ∧ t.tregSet = s.tregSet ∧ t.levels = s.levels

/-- RDTXN and the wire read codes write RES and no other result register, RDREG writes RES and RFLD, RDTIMER writes TREG alone
(R30 to R32, R161, R211, R223; that a wire code runs and writes RES is log 5). -/
def Obligations.ReadFrame : Prop :=
  ∀ (i : Instr) (s t : State), exec i s = .next t →
    ((∃ c, i = .rdtxn c) ∨ (∃ k, i = rdCode k) →
      t.rfld = s.rfld ∧ t.rfldSet = s.rfldSet ∧ t.treg = s.treg ∧ t.tregSet = s.tregSet) ∧
    ((∃ k, i = .rdreg k) → t.treg = s.treg ∧ t.tregSet = s.tregSet) ∧
    (i = .rdtimer → t.res = s.res ∧ t.resSet = s.resSet ∧ t.rfld = s.rfld ∧ t.rfldSet = s.rfldSet)

/-- ENC.k changes RES alone of the data and result registers (TXD, RXD, RES, RFLD, TREG) and DEC.k RFLD alone; both leave the lines,
T, PH, DLY, the trace, the environment and the peer's memory as they were. Of CWR, STATUS and the event count, which each operation
changes, nothing is said here (R175, R179 to R194). -/
def Obligations.CodecFrame : Prop :=
  ∀ (k : Kind) (f1 f0 : Bool) (tens ones : BitVec 4) (b : Byte) (s t : State),
    (exec (encOf k f1 f0 tens ones) s = .next t → t.rfld = s.rfld ∧ t.rfldSet = s.rfldSet) ∧
    (exec (decOf k b) s = .next t → t.res = s.res ∧ t.resSet = s.resSet) ∧
    (exec (encOf k f1 f0 tens ones) s = .next t ∨ exec (decOf k b) s = .next t →
      SameLines s t ∧ t.txd = s.txd ∧ t.rxd = s.rxd ∧ t.treg = s.treg ∧ t.tregSet = s.tregSet ∧ t.t = s.t ∧
      t.ph = s.ph ∧ t.dly = s.dly ∧ t.trace = s.trace ∧ t.pins = s.pins ∧ t.levels = s.levels ∧
      t.draws = s.draws ∧ t.peer = s.peer ∧ ∀ a, peerByte t a = peerByte s a)

/-- A run on its own stores at most into the slot that PEER-ECHO's open frame already selected for writing: every other address
reads as before (R65, R146 to R149; the slots' addresses and failed events are log 18). -/
def Obligations.RunMemoryFrame : Prop :=
  ∀ (i : Instr) (p : Peer) (s t : State) (a : Nat), (drivesBare i ∨ i = .rxbyte ∨ i = .rxbyteL) →
    exec i s = .next t → s.peer = some p → (∀ sl, p.sel = .wr sl → a ≠ sl.addr) → peerByte t a = peerByte s a

/-- One frame stores at most into the slot that its command byte selects for writing: every other address of PEER-ECHO's memory
reads as before (R65, R160, R161, R210, R211; the wire codes are log 5, the slots' addresses and failed events are log 18). -/
def Obligations.FrameMemoryFrame : Prop :=
  ∀ (i : Instr) (cmd : Byte) (s t : State) (a : Nat),
    ((∃ d, i = .wrtxn cmd d) ∨ i = .rdtxn cmd ∨
      (∃ k f1 f0 tens ones, i = .wrreg k f1 f0 tens ones ∧ cmd = (s.cfg.tab.get k).wr) ∨
      (∃ k, i = .rdreg k ∧ cmd = (s.cfg.tab.get k).rd) ∨ (∃ k d, i = wrCode k d ∧ cmd = (s.cfg.tab.get k).wr) ∨
      (∃ k, i = rdCode k ∧ cmd = (s.cfg.tab.get k).rd)) →
    exec i s = .next t → (∀ sl, lookup s.cfg cmd = .wr sl → a ≠ sl.addr) → peerByte t a = peerByte s a

/-- RSTTIMER and RDTIMER store at most into the slots that one of their command bytes selects for writing (R65, R220, R223; the
slots' addresses and failed events are log 18). -/
def Obligations.TimerMemoryFrame : Prop :=
  ∀ (s t : State) (a : Nat),
    (exec .rsttimer s = .next t → (∀ w ∈ timerWrites s.cfg, ∀ sl, lookup s.cfg w.1 = .wr sl → a ≠ sl.addr) →
      peerByte t a = peerByte s a) ∧
    (exec .rdtimer s = .next t → (∀ c ∈ timerReads s.cfg, ∀ sl, lookup s.cfg c = .wr sl → a ≠ sl.addr) →
      peerByte t a = peerByte s a)

/-! The whole machine. -/

/-- The lines change only with an event: a step that adds no event to the trace leaves them alone, unless it is a hardware reset
(R39 (e), R68). -/
def Obligations.LinesNeedEvents : Prop :=
  ∀ s t : State, step s = .next t → (∀ rest, s.host ≠ .reset :: rest) → t.trace = s.trace → SameLines s t

/-- While the block is idle, a step that is no call, no write of CMD and no reset changes nothing: no line, no register of the
block, not its sequencer position, its status, its configuration, the trace or the environment, only the host's own list and the
word it read, and the model's draw counter (R39 (f), R58, R68). -/
def Obligations.IdleHolds : Prop :=
  ∀ s t : State, s.seq = .idle → step s = .next t → (∀ c rest, s.host ≠ .call c :: rest) →
    (∀ w rest, s.host ≠ .write 0 w :: rest) → (∀ rest, s.host ≠ .reset :: rest) →
    SameLines s t ∧ t = { s with host := s.host.tail, bus := t.bus, draws := t.draws }

/-- Every step keeps the invariant of R39, of the hold counter (R33) and of the peer (R65). -/
def Obligations.StepKeepsInv : Prop := ∀ s t : State, s.Inv → step s = .next t → t.Inv

/-- The reset state has the invariant. -/
def Obligations.ResetHasInv : Prop := State.reset.Inv

/-- The state after hardware reset: the lines, the sequencer, STATUS and DLY have the values of R38, and no operation wrote RES,
RFLD or TREG yet; a host read of one of them then returns 0 (R38 leaves their values open and has a model refuse the read; that they
hold 0 and are read is the model's choice, log 2). -/
def Obligations.ResetValues : Prop :=
  State.reset.clk = false ∧ State.reset.dataOut = false ∧ State.reset.dataOe = false ∧ State.reset.rst = false ∧
  State.reset.pwr = true ∧ State.reset.seq = .idle ∧ State.reset.t = 0 ∧ State.reset.ph = false ∧
  State.reset.status = ⟨false, false, false, none, 0, 0⟩ ∧ State.reset.status.word = 0 ∧ State.reset.dly = 0 ∧
  State.reset.resSet = false ∧ State.reset.rfldSet = false ∧ State.reset.tregSet = false ∧
  hostRead 0x08 State.reset = .next { State.reset with bus := 0 } ∧
  hostRead 0x0C State.reset = .next { State.reset with bus := 0 } ∧
  ∀ i < 7, hostRead (0x10 + 4 * i) State.reset = .next { State.reset with bus := 0 }

/-- Hardware reset, also while an operation runs: the state of R38, the operation gone without a completion, no event, and the
configuration as before (R270, R271; the peer's view of it is log 12). -/
def Obligations.HardwareReset : Prop :=
  ∀ (s : State) (rest : List HostAct), s.host = .reset :: rest →
    ∃ t, step s = .next t ∧ t.clk = false ∧ t.dataOut = false ∧ t.dataOe = false ∧ t.rst = false ∧ t.pwr = true ∧
      t.seq = .idle ∧ t.t = 0 ∧ t.ph = false ∧ t.status = Status.zero ∧ t.dly = 0 ∧ t.resSet = false ∧
      t.rfldSet = false ∧ t.tregSet = false ∧ t.trace = s.trace ∧ t.cfg = s.cfg

/-! The codec and the host's arithmetic. -/

/-- The round trip of R195, both ways. -/
def Obligations.CodecRoundTrip : Prop :=
  (∀ (k : Kind) (f1 f0 : Bool) (tens ones : BitVec 4), inDomain k f1 f0 tens ones = true →
    decodeFields k (encodeFields k f1 f0 tens ones) = ⟨f1, f0, tens, ones⟩) ∧
  (∀ (k : Kind) (b : Byte),
    encodeFields k (decodeFields k b).f1 (decodeFields k b).f0 (decodeFields k b).tens (decodeFields k b).ones = b ↔
      b &&& reservedMask k = 0)

/-- DIGITS, VALUE and YEARFULL (R176, R177, R197). -/
def Obligations.HostArithmetic : Prop :=
  (∀ v ≤ 99, digits v = some (v / 10, v % 10) ∧ v / 10 ≤ 9 ∧ v % 10 ≤ 9) ∧ (∀ v > 99, digits v = none) ∧
  (∀ tens ones, ones ≤ 9 → value tens ones = some (10 * tens + ones)) ∧ (∀ tens ones, ones > 9 → value tens ones = none) ∧
  (∀ tens ones, tens ≤ 15 → ones ≤ 9 → 10 * tens + ones ≤ 159 ∧
    ∃ y, yearFull tens ones = some y ∧ 1970 ≤ y ∧ y ≤ 2129) ∧
  (∀ v ≤ 99, (digits v).bind (fun d => value d.1 d.2) = some v) ∧
  (∀ tens ones, ones ≤ 9 → yearFull tens ones = some (1970 + (10 * tens + ones)))

/-! The peer. -/

/-- The loopback of R66: against PEER-ECHO, with no failed pin action, a write transaction with a kind's write code followed by a
read transaction with its read code returns the byte written. -/
def Obligations.Loopback : Prop :=
  ∀ (k : Kind) (d : Byte) (p : Peer) (s : State) (rest : List PinAnswer), s.cfg.Distinct → s.status.busy = false →
    s.peer = some p → s.pins = okPins 103 rest →
    ∃ t u, exec (.wrtxn (s.cfg.tab.get k).wr d) s = .next t ∧ t.status = Status.completed ∧
      exec (.rdtxn (t.cfg.tab.get k).rd) t = .next u ∧ u.status = Status.completed ∧ u.res = d

/-- The end-to-end example of R226: RSTTIMER then RDTIMER against PEER-ECHO, with no failed pin action, gives the literal reset
bytes in TREG, and FORMAT gives the document's line. -/
def Obligations.ResetThenRead : Prop :=
  ∀ (p : Peer) (s : State) (rest : List PinAnswer), s.cfg.Distinct → s.status.busy = false → s.peer = some p →
    s.pins = okPins 925 rest →
    ∃ t u, exec .rsttimer s = .next t ∧ exec .rdtimer t = .next u ∧ u.status = Status.completed ∧
      u.treg = ⟨0x00, 0x00, 0x00, 0x31, 0x01, 0x26, 0x03⟩ ∧
      decodeFields .sec u.treg.sec = ⟨false, false, 0, 0⟩ ∧ decodeFields .min u.treg.min = ⟨false, false, 0, 0⟩ ∧
      decodeFields .hour u.treg.hour = ⟨false, false, 0, 0⟩ ∧ decodeFields .date u.treg.date = ⟨false, false, 3, 1⟩ ∧
      decodeFields .month u.treg.month = ⟨false, false, 0, 1⟩ ∧ decodeFields .year u.treg.year = ⟨false, false, 2, 6⟩ ∧
      decodeFields .day u.treg.day = ⟨false, false, 0, 3⟩ ∧ yearFull 2 6 = some 1996 ∧
      format u.treg = some "1996-01-31 00:00:00 3th".toList

/-! The host's registers. -/

/-- What a host read of a readable register returns: STATUS, RES, RFLD, PINS and TREG[i], and nothing of the block changes
(R29 to R32, R34, R35, R58; also before an operation wrote the register, log 2). -/
def Obligations.HostReads : Prop :=
  ∀ s : State,
    hostRead 0x04 s = .next { s with bus := s.status.word } ∧
    hostRead 0x08 s = .next { s with bus := 0#24 ++ s.res } ∧
    (∃ t, hostRead 0x0C s = .next t ∧ t.bus.getLsbD 17 = s.rfld.f1 ∧ t.bus.getLsbD 16 = s.rfld.f0 ∧
      t.bus.extractLsb' 8 4 = s.rfld.tens ∧ t.bus.extractLsb' 0 4 = s.rfld.ones ∧ t.bus &&& 0xFFFCF0F0 = 0 ∧
      t = { s with bus := t.bus }) ∧
    (∃ t, hostRead 0x2C s = .next t ∧ t.bus.getLsbD 0 = s.clk ∧ t.bus.getLsbD 1 = s.dataOut ∧
      t.bus.getLsbD 2 = s.dataOe ∧ (s.dataOe = true → t.bus.getLsbD 3 = s.dataOut) ∧ t.bus.getLsbD 4 = s.rst ∧
      t.bus.getLsbD 5 = s.pwr ∧ t.bus.extractLsb' 6 26 = 0 ∧ t = { s with bus := t.bus, draws := t.draws }) ∧
    (hostRead 0x10 s = .next { s with bus := 0#24 ++ s.treg.sec } ∧
      hostRead 0x14 s = .next { s with bus := 0#24 ++ s.treg.min } ∧
      hostRead 0x18 s = .next { s with bus := 0#24 ++ s.treg.hour } ∧
      hostRead 0x1C s = .next { s with bus := 0#24 ++ s.treg.date } ∧
      hostRead 0x20 s = .next { s with bus := 0#24 ++ s.treg.month } ∧
      hostRead 0x24 s = .next { s with bus := 0#24 ++ s.treg.year } ∧
      hostRead 0x28 s = .next { s with bus := 0#24 ++ s.treg.day })

/-- A write to CMD of the word of a well-formed operation, while BUSY is 0, issues that operation: CWR takes the word, BUSY
becomes 1, DONE and the error fields 0, events are counted from 0, the sequencer runs that operation with no failure yet, and
nothing else changes, no event happens (a transmit run on its own needs DATA_OE = 1). A write of a read-only register is ignored;
an access to an offset that is none of the twelve registers faults (R34, R132, R134; that the model names it a fault is log 19).
-/
def Obligations.HostWrites : Prop :=
  ∀ (off : Nat) (v : Word) (s : State),
    (∀ i, off = 0x00 → decodeWord v = .ok i → i.wellFormed = true → s.status.busy = false →
      (drivesBare i → s.dataOe = true) →
      ∃ r : Running, r.op = i ∧ r.err = none ∧ r.got = [] ∧ hostWrite off v s = .next
        { s with cwr := v, status := ⟨true, false, false, none, 0, 0⟩, evIdx := 0, seq := .run r }) ∧
    (off ∈ [0x04, 0x08, 0x0C, 0x10, 0x14, 0x18, 0x1C, 0x20, 0x24, 0x28, 0x2C] → hostWrite off v s = .next s) ∧
    (off ∉ [0x00, 0x04, 0x08, 0x0C, 0x10, 0x14, 0x18, 0x1C, 0x20, 0x24, 0x28, 0x2C] →
      hostWrite off v s = .fault (.noSuchRegister off) ∧ hostRead off s = .fault (.noSuchRegister off))

/-- The fields of the STATUS word and the EKIND codes (R29, R103). -/
def Obligations.StatusWord : Prop :=
  ∀ x : Status,
    x.word.getLsbD 0 = x.busy ∧ x.word.getLsbD 1 = x.done ∧ x.word.getLsbD 2 = x.err ∧ x.word.getLsbD 3 = false ∧
    x.word.extractLsb' 4 3 = (match x.ekind with
      | none => 0
      | some .outOfRange => 1
      | some .resourceUnavailable => 2
      | some .ioError => 3
      | some .protocolAborted => 4
      | some .handlerFailed => 5) ∧
    x.word.getLsbD 7 = false ∧ x.word.extractLsb' 8 8 = x.ecause ∧ x.word.extractLsb' 16 16 = x.estep

/-! The sequencer turn by turn. -/

/-- An operation that is issued and not waited for arrives, in some number of turns, at exactly the state in which calling it
ends (R20, R28, R132, R133, R283; the two grains are log 14; the wire codes are log 5). -/
def Obligations.TurnsReachExec : Prop :=
  ∀ (i : Instr) (s t : State), s.Ready → exec i s = .next t →
    ∃ s0 n, issue i s = .next s0 ∧ s0.status.busy = true ∧ turns n s0 = .next t

/-- A hold lasts T_HOLD counts of DLY before its event: no turn of it but the last adds an event. In cycle `t` of an engine run
whose three pin actions succeed, T holds `t` at every turn, PH and the clock line are 0 from the low drive on and 1 from the high
drive on, and after its five events the sequencer stands behind the cycle (R28, R33, R126, R140, R273; one count a turn is log 16,
one step a turn log 14). -/
def Obligations.HoldCounts : Prop :=
  (∀ (s : State) (r : Running) (ms : List Micro), s.seq = .run r → r.body = .hold :: ms → s.dly = 0 →
    (∀ n, 0 < n → n ≤ s.cfg.tHold → turns n s = .next { s with dly := s.cfg.tHold + 1 - n }) ∧
    ∃ t, turns (s.cfg.tHold + 1) s = .next t ∧ t.dly = 0 ∧ t.trace = s.trace ++ [.dly] ∧
      t.seq = .run { r with body := ms }) ∧
  (∀ (pol : Bool) (act : BitVec 3 → Micro) (t : BitVec 3) (s : State) (r : Running) (ms : List Micro)
    (rest : List PinAnswer), s.seq = .run r → r.body = cycle pol act t ++ ms → s.dly = 0 → s.pins = okPins 3 rest →
    (act = .txBit ∧ s.dataOe = true ∨ act = .rxBit) →
    (∀ n, 0 < n → n ≤ 2 * s.cfg.tHold + 5 → ∃ u, turns n s = .next u ∧ u.t = t ∧ u.clk = u.ph ∧
      u.ph = decide (s.cfg.tHold + 3 + (if pol then 1 else 0) ≤ n)) ∧
    ∃ u, turns (2 * s.cfg.tHold + 5) s = .next u ∧ u.seq = .run { r with body := ms } ∧ u.evIdx = s.evIdx + 5 ∧
      u.dly = 0 ∧ u.pins = rest)
end

