-- ==== Sys2Proof/Laws/Decode.lean ====
section
/-! SUPPORT. The fields of a word and back: no bit is lost; the kind code and the fields of format K likewise. -/

namespace Sys2Proof

theorem Parts.getLsbD_toWord (p : Parts) (i : Nat) :
    p.toWord.getLsbD i =
      if i < 8 then p.c.getLsbD i else if i < 16 then p.b.getLsbD (i - 8) else if i < 24 then p.a.getLsbD (i - 16)
      else if i < 28 then p.sub.getLsbD (i - 24) else p.opc.getLsbD (i - 28) := by
  simp only [Parts.toWord, BitVec.getLsbD_append, Nat.sub_sub]
  have a : (i < 8) ∨ (8 ≤ i ∧ i < 16) ∨ (16 ≤ i ∧ i < 24) ∨ (24 ≤ i ∧ i < 28) ∨ 28 ≤ i := by omega
  rcases a with a | a | a | a | a
  · simp [a]
  · simp [show ¬ i < 8 by omega, show i - 8 < 8 by omega, a]
  · simp [show ¬ i < 8 by omega, show ¬ i - 8 < 8 by omega, show i - 16 < 8 by omega, show ¬ i < 16 by omega, a]
  · simp [show ¬ i < 8 by omega, show ¬ i - 8 < 8 by omega, show ¬ i - 16 < 8 by omega, show i - 24 < 4 by omega,
      show ¬ i < 16 by omega, show ¬ i < 24 by omega, a]
  · simp [show ¬ i < 8 by omega, show ¬ i - 8 < 8 by omega, show ¬ i - 16 < 8 by omega, show ¬ i - 24 < 4 by omega,
      show ¬ i < 16 by omega, show ¬ i < 24 by omega, show ¬ i < 28 by omega]

theorem Parts.ofWord_toWord (p : Parts) : Parts.ofWord p.toWord = p := by
  obtain ⟨o, s, a, b, c⟩ := p
  simp only [Parts.ofWord, Parts.mk.injEq]
  refine ⟨?_, ?_, ?_, ?_, ?_⟩ <;> apply BitVec.eq_of_getLsbD_eq <;> intro i hi <;>
    simp only [BitVec.getLsbD_extractLsb', hi, decide_true, Bool.true_and, Parts.getLsbD_toWord]
  · simp [show ¬ 28 + i < 8 by omega, show ¬ 28 + i < 16 by omega, show ¬ 28 + i < 24 by omega]
  · simp [show ¬ 24 + i < 8 by omega, show ¬ 24 + i < 16 by omega, show 24 + i < 28 by omega]
  · simp [show ¬ 16 + i < 8 by omega, show 16 + i < 24 by omega]
  · simp [show 8 + i < 16 by omega]
  · simp [hi]

theorem Parts.toWord_ofWord (w : Word) : (Parts.ofWord w).toWord = w := by
  apply BitVec.eq_of_getLsbD_eq
  intro i hi
  simp only [Parts.getLsbD_toWord, Parts.ofWord, BitVec.getLsbD_extractLsb']
  have a : (i < 8) ∨ (8 ≤ i ∧ i < 16) ∨ (16 ≤ i ∧ i < 24) ∨ (24 ≤ i ∧ i < 28) ∨ 28 ≤ i := by omega
  rcases a with a | a | a | a | a
  · simp [a]
  · simp [show ¬ i < 8 by omega, show i - 8 < 8 by omega, a]
  · simp [show ¬ i < 8 by omega, show ¬ i < 16 by omega, show i - 16 < 8 by omega, a]
  · simp [show ¬ i < 8 by omega, show ¬ i < 16 by omega, show ¬ i < 24 by omega, show i - 24 < 4 by omega, a]
  · simp [show ¬ i < 8 by omega, show ¬ i < 16 by omega, show ¬ i < 24 by omega, show ¬ i < 28 by omega,
      show i - 28 < 4 by omega, a]

/-- Two words agree under a mask exactly when their fields do. -/
theorem Parts.toWord_and (p q : Parts) :
    p.toWord &&& q.toWord = (Parts.mk (p.opc &&& q.opc) (p.sub &&& q.sub) (p.a &&& q.a) (p.b &&& q.b) (p.c &&& q.c)).toWord := by
  apply BitVec.eq_of_getLsbD_eq
  intro i _
  simp only [BitVec.getLsbD_and, Parts.getLsbD_toWord]
  repeat' split
  all_goals rfl

theorem Parts.toWord_inj {p q : Parts} (h : p.toWord = q.toWord) : p = q := by
  rw [← p.ofWord_toWord, h, q.ofWord_toWord]

@[simp] theorem Kind.ofCode_code (k : Kind) : Kind.ofCode k.code = k := by cases k <;> rfl

theorem Kind.code_ofCode (c : BitVec 3) : (Kind.ofCode c).code = c := by revert c; decide

/-- A code the decoder reads stands for the same operation when the host calls it. -/
theorem decodeCall_of_decode {cfg : Config} {c : Code} {i : Instr} (h : decode cfg.tab c = .ok i) :
    decodeCall cfg c = .ok i := by
  cases c with
  | cw w => exact h
  | wire cmd dat =>
    have e : decodeWire cfg.tab cmd dat = .ok i := h
    simp [decodeCall, e]

/-- A byte outside the command table is no code of it. -/
theorem decodeWire_unlisted {tab : CmdTab} {cmd : Byte} (dat : Byte) (h : cmd ∉ tab.codes) :
    decodeWire tab cmd dat = .error .unlistedCode := by
  simp only [CmdTab.codes, List.mem_cons, List.not_mem_nil, or_false, not_or] at h
  simp [decodeWire, h]

/-- A control address outside the command table is called as the write transaction of that byte (R88; log 5). -/
theorem decodeCall_control {cfg : Config} {cmd : Byte} (dat : Byte) (h : cmd ∉ cfg.tab.codes)
    (hc : cmd = cfg.ctlCharge ∨ cmd = cfg.ctlTrickle) : decodeCall cfg (.wire cmd dat) = .ok (.wrtxn cmd dat) := by
  simp [decodeCall, decodeWire_unlisted dat h, hc]

end Sys2Proof
end

