-- ==== Sys2Proof/Laws/Memory.lean ====
section
/-! SUPPORT. The memory of PEER-ECHO: a write keeps the canonical form, a read after a write gives the value written,
every other address reads as before; no event and no list of events takes the peer out of its well-formed states. -/

namespace Sys2Proof.Machine

theorem Memory.read_write_same (m : Memory) (x : Nat) (v : Byte) : (m.write x v).read x = some v := by
  induction m with
  | nil => simp [Memory.write, Memory.read]
  | cons c r ih =>
    obtain ⟨a, b⟩ := c
    simp only [Memory.write]
    split
    · simp [Memory.read]
    · split
      · simp [Memory.read]
      · simp [Memory.read, *]

theorem Memory.read_write_other (m : Memory) {x y : Nat} (v : Byte) (h : y ≠ x) :
    (m.write x v).read y = m.read y := by
  induction m with
  | nil => simp [Memory.write, Memory.read, h]
  | cons c r ih =>
    obtain ⟨a, b⟩ := c
    simp only [Memory.write]
    split
    · simp [Memory.read, h]
    · split
      · subst_vars; simp [Memory.read, h]
      · simp [Memory.read, ih]

theorem Memory.wf_cons (c : Host.Cell) (m : Memory) :
    Memory.wf (c :: m) = true ↔ (∀ d, m.head? = some d → c.1 < d.1) ∧ m.wf = true := by
  cases m <;> simp [Memory.wf]

theorem Memory.head_write (m : Memory) (x : Nat) (v : Byte) (d : Host.Cell) (h : (m.write x v).head? = some d) :
    d.1 = x ∨ m.head?.map Prod.fst = some d.1 := by
  cases m with
  | nil => simp [Memory.write] at h; simp [← h]
  | cons c r =>
    simp only [Memory.write] at h
    split at h
    · simp at h; simp [← h]
    · split at h <;> simp at h <;> simp [← h]

/-- Every write keeps the canonical form. -/
theorem Memory.wf_write (m : Memory) (x : Nat) (v : Byte) (h : m.wf = true) : (m.write x v).wf = true := by
  induction m with
  | nil => rfl
  | cons c r ih =>
    obtain ⟨a, b⟩ := c
    rw [Memory.wf_cons] at h
    simp only [Memory.write]
    split
    · next hx => exact (Memory.wf_cons _ _).2 ⟨by simpa using hx, (Memory.wf_cons _ _).2 h⟩
    · split
      · subst_vars; exact (Memory.wf_cons _ _).2 h
      · refine (Memory.wf_cons _ _).2 ⟨fun d hd => ?_, ih h.2⟩
        rcases Memory.head_write r x v d hd with e | e
        · show a < d.1
          omega
        · rw [Option.map_eq_some_iff] at e
          obtain ⟨d', hd', e⟩ := e
          exact e ▸ h.1 d' hd'

theorem Peer.Wf.fresh : Peer.fresh.Wf := ⟨by decide, by decide, rfl⟩

theorem Peer.Wf.rise {p : Peer} (cfg : Config) (d : Bool) (h : p.Wf) : (p.rise cfg d).Wf := by
  obtain ⟨h1, h2, h3⟩ := h
  unfold Peer.rise
  repeat' split
  all_goals exact ⟨by first | omega | (dsimp only; omega), h2, by first | exact h3 | exact Memory.wf_write _ _ _ h3⟩

theorem Peer.Wf.fall {p : Peer} (h : p.Wf) : p.fall.Wf := by
  obtain ⟨h1, h2, h3⟩ := h
  unfold Peer.fall
  repeat' split
  all_goals exact ⟨h1, by first | omega | (dsimp only; omega), h3⟩

/-- Every event leaves the peer well formed. -/
theorem Peer.Wf.react {p : Peer} (cfg : Config) (e : Event) (d : Bool) (h : p.Wf) : (p.react cfg e d).Wf := by
  cases e with
  | clk v =>
    cases v
    · simp only [Peer.react]
      split
      · exact ⟨h.fall.rises, h.fall.falls, h.fall.mem⟩
      · exact ⟨h.rises, h.falls, h.mem⟩
    · simp only [Peer.react]
      split
      · exact ⟨(h.rise cfg d).rises, (h.rise cfg d).falls, (h.rise cfg d).mem⟩
      · exact ⟨h.rises, h.falls, h.mem⟩
  | rst v => cases v <;> exact ⟨by simp [Peer.react, h.rises], by simp [Peer.react, h.falls], h.mem⟩
  | dat v => exact h
  | smp v => exact h
  | dir x => exact h
  | dly => exact h
  | failed a => exact h

theorem Peer.Wf.hear {p : Peer} (cfg : Config) (es : List Event) (d : Bool) (h : p.Wf) : (p.hear cfg d es).Wf := by
  induction es generalizing p d with
  | nil => exact h
  | cons e es ih =>
    cases e with
    | dat v => exact ih v h
    | clk v => exact ih d (h.react cfg (.clk v) d)
    | smp v => exact ih d (h.react cfg (.smp v) d)
    | rst v => exact ih d (h.react cfg (.rst v) d)
    | dir x => exact ih d (h.react cfg (.dir x) d)
    | dly => exact ih d (h.react cfg .dly d)
    | failed a => exact ih d (h.react cfg (.failed a) d)

theorem Peer.Wf.cut {p : Peer} (s : State) (h : p.Wf) : (Peer.cut s p).Wf := by
  unfold Peer.cut
  split
  · exact ⟨(h.react s.cfg (.rst false) s.dataOut).rises, (h.react s.cfg (.rst false) s.dataOut).falls, h.mem⟩
  · exact ⟨h.rises, h.falls, h.mem⟩

theorem State.reset_peerWf : State.reset.PeerWf := by intro p h; cases h

end Sys2Proof.Machine
end

