-- ==== Sys2Proof/Laws/State.lean ====
section
/-! SUPPORT. One lemma per field per named update of the state, true by rfl, so that no later proof unfolds a record
update. -/

namespace Sys2Proof.Machine

variable (s : State)

/-! An event (Machine/Ops.lean, `State.emit`). -/

@[simp] theorem emit_clk (e : Event) : (s.emit e).clk = s.clk := rfl
@[simp] theorem emit_dataOut (e : Event) : (s.emit e).dataOut = s.dataOut := rfl
@[simp] theorem emit_dataOe (e : Event) : (s.emit e).dataOe = s.dataOe := rfl
@[simp] theorem emit_rst (e : Event) : (s.emit e).rst = s.rst := rfl
@[simp] theorem emit_pwr (e : Event) : (s.emit e).pwr = s.pwr := rfl
@[simp] theorem emit_txd (e : Event) : (s.emit e).txd = s.txd := rfl
@[simp] theorem emit_rxd (e : Event) : (s.emit e).rxd = s.rxd := rfl
@[simp] theorem emit_cwr (e : Event) : (s.emit e).cwr = s.cwr := rfl
@[simp] theorem emit_res (e : Event) : (s.emit e).res = s.res := rfl
@[simp] theorem emit_rfld (e : Event) : (s.emit e).rfld = s.rfld := rfl
@[simp] theorem emit_treg (e : Event) : (s.emit e).treg = s.treg := rfl
@[simp] theorem emit_resSet (e : Event) : (s.emit e).resSet = s.resSet := rfl
@[simp] theorem emit_rfldSet (e : Event) : (s.emit e).rfldSet = s.rfldSet := rfl
@[simp] theorem emit_tregSet (e : Event) : (s.emit e).tregSet = s.tregSet := rfl
@[simp] theorem emit_seq (e : Event) : (s.emit e).seq = s.seq := rfl
@[simp] theorem emit_t (e : Event) : (s.emit e).t = s.t := rfl
@[simp] theorem emit_ph (e : Event) : (s.emit e).ph = s.ph := rfl
@[simp] theorem emit_evIdx (e : Event) : (s.emit e).evIdx = s.evIdx + 1 := rfl
@[simp] theorem emit_dly (e : Event) : (s.emit e).dly = s.dly := rfl
@[simp] theorem emit_status (e : Event) : (s.emit e).status = s.status := rfl
@[simp] theorem emit_cfg (e : Event) : (s.emit e).cfg = s.cfg := rfl
@[simp] theorem emit_trace (e : Event) : (s.emit e).trace = s.trace ++ [e] := rfl
@[simp] theorem emit_pins (e : Event) : (s.emit e).pins = s.pins := rfl
@[simp] theorem emit_levels (e : Event) : (s.emit e).levels = s.levels := rfl
@[simp] theorem emit_draws (e : Event) : (s.emit e).draws = s.draws := rfl
@[simp] theorem emit_peer (e : Event) : (s.emit e).peer = s.peer.map (Peer.react s.cfg e s.dataOut) := rfl
@[simp] theorem emit_host (e : Event) : (s.emit e).host = s.host := rfl
@[simp] theorem emit_bus (e : Event) : (s.emit e).bus = s.bus := rfl

/-! The issue of an operation (`issueOp`). -/

@[simp] theorem issueOp_clk (w : Word) : (issueOp w s).clk = s.clk := rfl
@[simp] theorem issueOp_dataOut (w : Word) : (issueOp w s).dataOut = s.dataOut := rfl
@[simp] theorem issueOp_dataOe (w : Word) : (issueOp w s).dataOe = s.dataOe := rfl
@[simp] theorem issueOp_rst (w : Word) : (issueOp w s).rst = s.rst := rfl
@[simp] theorem issueOp_pwr (w : Word) : (issueOp w s).pwr = s.pwr := rfl
@[simp] theorem issueOp_txd (w : Word) : (issueOp w s).txd = s.txd := rfl
@[simp] theorem issueOp_rxd (w : Word) : (issueOp w s).rxd = s.rxd := rfl
@[simp] theorem issueOp_cwr (w : Word) : (issueOp w s).cwr = w := rfl
@[simp] theorem issueOp_res (w : Word) : (issueOp w s).res = s.res := rfl
@[simp] theorem issueOp_rfld (w : Word) : (issueOp w s).rfld = s.rfld := rfl
@[simp] theorem issueOp_treg (w : Word) : (issueOp w s).treg = s.treg := rfl
@[simp] theorem issueOp_resSet (w : Word) : (issueOp w s).resSet = s.resSet := rfl
@[simp] theorem issueOp_rfldSet (w : Word) : (issueOp w s).rfldSet = s.rfldSet := rfl
@[simp] theorem issueOp_tregSet (w : Word) : (issueOp w s).tregSet = s.tregSet := rfl
@[simp] theorem issueOp_seq (w : Word) : (issueOp w s).seq = s.seq := rfl
@[simp] theorem issueOp_t (w : Word) : (issueOp w s).t = s.t := rfl
@[simp] theorem issueOp_ph (w : Word) : (issueOp w s).ph = s.ph := rfl
@[simp] theorem issueOp_evIdx (w : Word) : (issueOp w s).evIdx = 0 := rfl
@[simp] theorem issueOp_dly (w : Word) : (issueOp w s).dly = s.dly := rfl
@[simp] theorem issueOp_status (w : Word) : (issueOp w s).status = Status.issued := rfl
@[simp] theorem issueOp_cfg (w : Word) : (issueOp w s).cfg = s.cfg := rfl
@[simp] theorem issueOp_trace (w : Word) : (issueOp w s).trace = s.trace := rfl
@[simp] theorem issueOp_pins (w : Word) : (issueOp w s).pins = s.pins := rfl
@[simp] theorem issueOp_levels (w : Word) : (issueOp w s).levels = s.levels := rfl
@[simp] theorem issueOp_draws (w : Word) : (issueOp w s).draws = s.draws := rfl
@[simp] theorem issueOp_peer (w : Word) : (issueOp w s).peer = s.peer := rfl
@[simp] theorem issueOp_host (w : Word) : (issueOp w s).host = s.host := rfl
@[simp] theorem issueOp_bus (w : Word) : (issueOp w s).bus = s.bus := rfl

/-! A hold (`waitHold`). -/

@[simp] theorem waitHold_clk  : (waitHold s).clk = s.clk := rfl
@[simp] theorem waitHold_dataOut  : (waitHold s).dataOut = s.dataOut := rfl
@[simp] theorem waitHold_dataOe  : (waitHold s).dataOe = s.dataOe := rfl
@[simp] theorem waitHold_rst  : (waitHold s).rst = s.rst := rfl
@[simp] theorem waitHold_pwr  : (waitHold s).pwr = s.pwr := rfl
@[simp] theorem waitHold_txd  : (waitHold s).txd = s.txd := rfl
@[simp] theorem waitHold_rxd  : (waitHold s).rxd = s.rxd := rfl
@[simp] theorem waitHold_cwr  : (waitHold s).cwr = s.cwr := rfl
@[simp] theorem waitHold_res  : (waitHold s).res = s.res := rfl
@[simp] theorem waitHold_rfld  : (waitHold s).rfld = s.rfld := rfl
@[simp] theorem waitHold_treg  : (waitHold s).treg = s.treg := rfl
@[simp] theorem waitHold_resSet  : (waitHold s).resSet = s.resSet := rfl
@[simp] theorem waitHold_rfldSet  : (waitHold s).rfldSet = s.rfldSet := rfl
@[simp] theorem waitHold_tregSet  : (waitHold s).tregSet = s.tregSet := rfl
@[simp] theorem waitHold_seq  : (waitHold s).seq = s.seq := rfl
@[simp] theorem waitHold_t  : (waitHold s).t = s.t := rfl
@[simp] theorem waitHold_ph  : (waitHold s).ph = s.ph := rfl
@[simp] theorem waitHold_evIdx  : (waitHold s).evIdx = s.evIdx + 1 := rfl
@[simp] theorem waitHold_dly  : (waitHold s).dly = 0 := rfl
@[simp] theorem waitHold_status  : (waitHold s).status = s.status := rfl
@[simp] theorem waitHold_cfg  : (waitHold s).cfg = s.cfg := rfl
@[simp] theorem waitHold_trace  : (waitHold s).trace = s.trace ++ [.dly] := rfl
@[simp] theorem waitHold_pins  : (waitHold s).pins = s.pins := rfl
@[simp] theorem waitHold_levels  : (waitHold s).levels = s.levels := rfl
@[simp] theorem waitHold_draws  : (waitHold s).draws = s.draws := rfl
@[simp] theorem waitHold_peer  : (waitHold s).peer = s.peer.map (Peer.react s.cfg .dly s.dataOut) := rfl
@[simp] theorem waitHold_host  : (waitHold s).host = s.host := rfl
@[simp] theorem waitHold_bus  : (waitHold s).bus = s.bus := rfl

/-! The four drives (`Drive.apply`): the line each writes, and what all of them leave alone. -/

@[simp] theorem apply_clk_clk (v : Bool) : (Drive.apply (.clk v) s).clk = v := rfl
@[simp] theorem apply_clk_dataOut (v : Bool) : (Drive.apply (.clk v) s).dataOut = s.dataOut := rfl
@[simp] theorem apply_clk_dataOe (v : Bool) : (Drive.apply (.clk v) s).dataOe = s.dataOe := rfl
@[simp] theorem apply_clk_rst (v : Bool) : (Drive.apply (.clk v) s).rst = s.rst := rfl
@[simp] theorem apply_data_clk (v : Bool) : (Drive.apply (.data v) s).clk = s.clk := rfl
@[simp] theorem apply_data_dataOut (v : Bool) : (Drive.apply (.data v) s).dataOut = v := rfl
@[simp] theorem apply_data_dataOe (v : Bool) : (Drive.apply (.data v) s).dataOe = s.dataOe := rfl
@[simp] theorem apply_data_rst (v : Bool) : (Drive.apply (.data v) s).rst = s.rst := rfl
@[simp] theorem apply_rst_clk (v : Bool) : (Drive.apply (.rst v) s).clk = s.clk := rfl
@[simp] theorem apply_rst_dataOut (v : Bool) : (Drive.apply (.rst v) s).dataOut = s.dataOut := rfl
@[simp] theorem apply_rst_dataOe (v : Bool) : (Drive.apply (.rst v) s).dataOe = s.dataOe := rfl
@[simp] theorem apply_rst_rst (v : Bool) : (Drive.apply (.rst v) s).rst = v := rfl
@[simp] theorem apply_dir_clk (v : Dir) : (Drive.apply (.dir v) s).clk = s.clk := rfl
@[simp] theorem apply_dir_dataOut (v : Dir) : (Drive.apply (.dir v) s).dataOut = s.dataOut := rfl
@[simp] theorem apply_dir_dataOe (v : Dir) : (Drive.apply (.dir v) s).dataOe = (v == .out) := rfl
@[simp] theorem apply_dir_rst (v : Dir) : (Drive.apply (.dir v) s).rst = s.rst := rfl
@[simp] theorem apply_pwr (d : Drive) : (d.apply s).pwr = s.pwr := by cases d <;> rfl
@[simp] theorem apply_txd (d : Drive) : (d.apply s).txd = s.txd := by cases d <;> rfl
@[simp] theorem apply_rxd (d : Drive) : (d.apply s).rxd = s.rxd := by cases d <;> rfl
@[simp] theorem apply_cwr (d : Drive) : (d.apply s).cwr = s.cwr := by cases d <;> rfl
@[simp] theorem apply_res (d : Drive) : (d.apply s).res = s.res := by cases d <;> rfl
@[simp] theorem apply_rfld (d : Drive) : (d.apply s).rfld = s.rfld := by cases d <;> rfl
@[simp] theorem apply_treg (d : Drive) : (d.apply s).treg = s.treg := by cases d <;> rfl
@[simp] theorem apply_resSet (d : Drive) : (d.apply s).resSet = s.resSet := by cases d <;> rfl
@[simp] theorem apply_rfldSet (d : Drive) : (d.apply s).rfldSet = s.rfldSet := by cases d <;> rfl
@[simp] theorem apply_tregSet (d : Drive) : (d.apply s).tregSet = s.tregSet := by cases d <;> rfl
@[simp] theorem apply_seq (d : Drive) : (d.apply s).seq = s.seq := by cases d <;> rfl
@[simp] theorem apply_t (d : Drive) : (d.apply s).t = s.t := by cases d <;> rfl
@[simp] theorem apply_ph (d : Drive) : (d.apply s).ph = s.ph := by cases d <;> rfl
@[simp] theorem apply_evIdx (d : Drive) : (d.apply s).evIdx = s.evIdx := by cases d <;> rfl
@[simp] theorem apply_dly (d : Drive) : (d.apply s).dly = s.dly := by cases d <;> rfl
@[simp] theorem apply_status (d : Drive) : (d.apply s).status = s.status := by cases d <;> rfl
@[simp] theorem apply_cfg (d : Drive) : (d.apply s).cfg = s.cfg := by cases d <;> rfl
@[simp] theorem apply_trace (d : Drive) : (d.apply s).trace = s.trace := by cases d <;> rfl
@[simp] theorem apply_pins (d : Drive) : (d.apply s).pins = s.pins := by cases d <;> rfl
@[simp] theorem apply_levels (d : Drive) : (d.apply s).levels = s.levels := by cases d <;> rfl
@[simp] theorem apply_draws (d : Drive) : (d.apply s).draws = s.draws := by cases d <;> rfl
@[simp] theorem apply_peer (d : Drive) : (d.apply s).peer = s.peer := by cases d <;> rfl
@[simp] theorem apply_host (d : Drive) : (d.apply s).host = s.host := by cases d <;> rfl
@[simp] theorem apply_bus (d : Drive) : (d.apply s).bus = s.bus := by cases d <;> rfl

/-! Completion with Err (`completeErr`): the exception entry of this block. -/

@[simp] theorem completeErr_clk (p : Plan) (f : Failure) : (completeErr p f s).clk = s.clk := by
  unfold completeErr spoil; cases p.result <;> rfl
@[simp] theorem completeErr_dataOut (p : Plan) (f : Failure) : (completeErr p f s).dataOut = s.dataOut := by
  unfold completeErr spoil; cases p.result <;> rfl
@[simp] theorem completeErr_dataOe (p : Plan) (f : Failure) : (completeErr p f s).dataOe = s.dataOe := by
  unfold completeErr spoil; cases p.result <;> rfl
@[simp] theorem completeErr_rst (p : Plan) (f : Failure) : (completeErr p f s).rst = s.rst := by
  unfold completeErr spoil; cases p.result <;> rfl
@[simp] theorem completeErr_pwr (p : Plan) (f : Failure) : (completeErr p f s).pwr = s.pwr := by
  unfold completeErr spoil; cases p.result <;> rfl
@[simp] theorem completeErr_txd (p : Plan) (f : Failure) : (completeErr p f s).txd = s.txd := by
  unfold completeErr spoil; cases p.result <;> rfl
@[simp] theorem completeErr_rxd (p : Plan) (f : Failure) : (completeErr p f s).rxd = s.rxd := by
  unfold completeErr spoil; cases p.result <;> rfl
@[simp] theorem completeErr_cwr (p : Plan) (f : Failure) : (completeErr p f s).cwr = s.cwr := by
  unfold completeErr spoil; cases p.result <;> rfl
@[simp] theorem completeErr_seq (p : Plan) (f : Failure) : (completeErr p f s).seq = .idle := rfl
@[simp] theorem completeErr_t (p : Plan) (f : Failure) : (completeErr p f s).t = s.t := by
  unfold completeErr spoil; cases p.result <;> rfl
@[simp] theorem completeErr_ph (p : Plan) (f : Failure) : (completeErr p f s).ph = s.ph := by
  unfold completeErr spoil; cases p.result <;> rfl
@[simp] theorem completeErr_evIdx (p : Plan) (f : Failure) : (completeErr p f s).evIdx = s.evIdx := by
  unfold completeErr spoil; cases p.result <;> rfl
@[simp] theorem completeErr_dly (p : Plan) (f : Failure) : (completeErr p f s).dly = s.dly := by
  unfold completeErr spoil; cases p.result <;> rfl
@[simp] theorem completeErr_status (p : Plan) (f : Failure) : (completeErr p f s).status = Status.failed p.kind f := rfl
@[simp] theorem completeErr_cfg (p : Plan) (f : Failure) : (completeErr p f s).cfg = s.cfg := by
  unfold completeErr spoil; cases p.result <;> rfl
@[simp] theorem completeErr_trace (p : Plan) (f : Failure) : (completeErr p f s).trace = s.trace := by
  unfold completeErr spoil; cases p.result <;> rfl
@[simp] theorem completeErr_pins (p : Plan) (f : Failure) : (completeErr p f s).pins = s.pins := by
  unfold completeErr spoil; cases p.result <;> rfl
@[simp] theorem completeErr_levels (p : Plan) (f : Failure) : (completeErr p f s).levels = s.levels := by
  unfold completeErr spoil; cases p.result <;> rfl
@[simp] theorem completeErr_peer (p : Plan) (f : Failure) : (completeErr p f s).peer = s.peer := by
  unfold completeErr spoil; cases p.result <;> rfl
@[simp] theorem completeErr_host (p : Plan) (f : Failure) : (completeErr p f s).host = s.host := by
  unfold completeErr spoil; cases p.result <;> rfl
@[simp] theorem completeErr_bus (p : Plan) (f : Failure) : (completeErr p f s).bus = s.bus := by
  unfold completeErr spoil; cases p.result <;> rfl

/-! Completion with Ok (`completeOk`). -/

@[simp] theorem completeOk_clk (p : Plan) (got : List Byte) : (completeOk p got s).clk = s.clk := by
  unfold completeOk deliver; cases p.result <;> rfl
@[simp] theorem completeOk_dataOut (p : Plan) (got : List Byte) : (completeOk p got s).dataOut = s.dataOut := by
  unfold completeOk deliver; cases p.result <;> rfl
@[simp] theorem completeOk_dataOe (p : Plan) (got : List Byte) : (completeOk p got s).dataOe = s.dataOe := by
  unfold completeOk deliver; cases p.result <;> rfl
@[simp] theorem completeOk_rst (p : Plan) (got : List Byte) : (completeOk p got s).rst = s.rst := by
  unfold completeOk deliver; cases p.result <;> rfl
@[simp] theorem completeOk_pwr (p : Plan) (got : List Byte) : (completeOk p got s).pwr = s.pwr := by
  unfold completeOk deliver; cases p.result <;> rfl
@[simp] theorem completeOk_txd (p : Plan) (got : List Byte) : (completeOk p got s).txd = s.txd := by
  unfold completeOk deliver; cases p.result <;> rfl
@[simp] theorem completeOk_rxd (p : Plan) (got : List Byte) : (completeOk p got s).rxd = s.rxd := by
  unfold completeOk deliver; cases p.result <;> rfl
@[simp] theorem completeOk_cwr (p : Plan) (got : List Byte) : (completeOk p got s).cwr = s.cwr := by
  unfold completeOk deliver; cases p.result <;> rfl
@[simp] theorem completeOk_seq (p : Plan) (got : List Byte) : (completeOk p got s).seq = .idle := rfl
@[simp] theorem completeOk_t (p : Plan) (got : List Byte) : (completeOk p got s).t = s.t := by
  unfold completeOk deliver; cases p.result <;> rfl
@[simp] theorem completeOk_ph (p : Plan) (got : List Byte) : (completeOk p got s).ph = s.ph := by
  unfold completeOk deliver; cases p.result <;> rfl
@[simp] theorem completeOk_evIdx (p : Plan) (got : List Byte) : (completeOk p got s).evIdx = s.evIdx := by
  unfold completeOk deliver; cases p.result <;> rfl
@[simp] theorem completeOk_dly (p : Plan) (got : List Byte) : (completeOk p got s).dly = s.dly := by
  unfold completeOk deliver; cases p.result <;> rfl
@[simp] theorem completeOk_status (p : Plan) (got : List Byte) : (completeOk p got s).status = Status.completed := rfl
@[simp] theorem completeOk_cfg (p : Plan) (got : List Byte) : (completeOk p got s).cfg = s.cfg := by
  unfold completeOk deliver; cases p.result <;> rfl
@[simp] theorem completeOk_trace (p : Plan) (got : List Byte) : (completeOk p got s).trace = s.trace := by
  unfold completeOk deliver; cases p.result <;> rfl
@[simp] theorem completeOk_pins (p : Plan) (got : List Byte) : (completeOk p got s).pins = s.pins := by
  unfold completeOk deliver; cases p.result <;> rfl
@[simp] theorem completeOk_levels (p : Plan) (got : List Byte) : (completeOk p got s).levels = s.levels := by
  unfold completeOk deliver; cases p.result <;> rfl
@[simp] theorem completeOk_draws (p : Plan) (got : List Byte) : (completeOk p got s).draws = s.draws := by
  unfold completeOk deliver; cases p.result <;> rfl
@[simp] theorem completeOk_peer (p : Plan) (got : List Byte) : (completeOk p got s).peer = s.peer := by
  unfold completeOk deliver; cases p.result <;> rfl
@[simp] theorem completeOk_host (p : Plan) (got : List Byte) : (completeOk p got s).host = s.host := by
  unfold completeOk deliver; cases p.result <;> rfl
@[simp] theorem completeOk_bus (p : Plan) (got : List Byte) : (completeOk p got s).bus = s.bus := by
  unfold completeOk deliver; cases p.result <;> rfl

end Sys2Proof.Machine
end

