-- ==== Sys2Proof/Laws/Engine.lean ====
section
/-! SUPPORT. What the shared operations do: the pin oracle and the four drives, a transmit run and a receive run when
every pin action succeeds, the two kinds of frame, and what no step of an operation touches. -/

namespace Sys2Proof.Machine

theorem ask_listed {s : State} {a : PinAnswer} {r : List PinAnswer} (h : s.pins = a :: r) :
    ask s = (a, { s with pins := r }) := by simp [ask, h]

/-- The level on DATA_OUT after a list of events, with `d` the level before them. -/
def lastLevel : Bool → List Event → Bool
  | d, [] => d
  | _, .dat v :: es => lastLevel v es
  | d, _ :: es => lastLevel d es

theorem hear_append (cfg : Config) (d : Bool) (a b : List Event) (p : Peer) :
    p.hear cfg d (a ++ b) = (p.hear cfg d a).hear cfg (lastLevel d a) b := by
  induction a generalizing d p with
  | nil => simp [Peer.hear, lastLevel]
  | cons e es ih => cases e <;> simp [Peer.hear, lastLevel, ih]

theorem lastLevel_append (d : Bool) (a b : List Event) : lastLevel d (a ++ b) = lastLevel (lastLevel d a) b := by
  induction a generalizing d with
  | nil => rfl
  | cons e es ih => cases e <;> simp [lastLevel, ih]

/-- A state whose clock, data level and counters were moved by the events `es` of whole cycles. -/
def heard (es : List Event) (n : Nat) (t : BitVec 3) (r : List PinAnswer) (s : State) : State :=
  { s with
    clk := true, dataOut := lastLevel s.dataOut es, t := t, ph := true, dly := 0, evIdx := s.evIdx + n, pins := r
    trace := s.trace ++ es, peer := s.peer.map (Peer.hear s.cfg s.dataOut es) }

@[simp] theorem heard_pins (es : List Event) (n : Nat) (t : BitVec 3) (r : List PinAnswer) (s : State) :
    (heard es n t r s).pins = r := rfl

@[simp] theorem heard_txd (es : List Event) (n : Nat) (t : BitVec 3) (r : List PinAnswer) (s : State) :
    (heard es n t r s).txd = s.txd := rfl

theorem heard_heard (es fs : List Event) (n m : Nat) (t t' : BitVec 3) (r r' : List PinAnswer) (s : State) :
    heard fs m t' r' (heard es n t r s) = heard (es ++ fs) (n + m) t' r' s := by
  cases h : s.peer <;> simp [heard, hear_append, lastLevel_append, Nat.add_assoc, h]

theorem runBody_txCycle {s : State} {r : List PinAnswer} (h : s.pins = .ok :: .ok :: .ok :: r)
    (t : BitVec 3) (ms : List Micro) :
    runBody (cycle true .txBit t ++ ms) s =
      runBody ms (heard [.clk false, .dly, .dat (bitAt s.txd t), .clk true, .dly] 5 t r s) := by
  simp [cycle, runBody, Micro.run, pinDriveClk, pinDriveData, drive, ask, h, State.emit, Drive.apply, Drive.event,
    waitHold, heard, lastLevel]
  congr 1

theorem runBody_txRun {s : State} {r : List PinAnswer} (h : s.pins = okPins 24 r) (ms : List Micro) :
    runBody (engine true .txBit ++ ms) s = runBody ms (heard (txTrace s.txd) 40 7 r s) := by
  have e : engine true .txBit ++ ms = cycle true .txBit 0 ++ (cycle true .txBit 1 ++ (cycle true .txBit 2 ++
      (cycle true .txBit 3 ++ (cycle true .txBit 4 ++ (cycle true .txBit 5 ++ (cycle true .txBit 6 ++
      (cycle true .txBit 7 ++ ms))))))) := by
    simp [engine, cycleIndices]
  rw [e, runBody_txCycle (r := okPins 21 r) (by simpa [okPins, List.replicate] using h),
    runBody_txCycle (r := okPins 18 r) rfl, runBody_txCycle (r := okPins 15 r) rfl,
    runBody_txCycle (r := okPins 12 r) rfl, runBody_txCycle (r := okPins 9 r) rfl,
    runBody_txCycle (r := okPins 6 r) rfl, runBody_txCycle (r := okPins 3 r) rfl,
    runBody_txCycle (r := r) rfl]
  simp only [heard_heard, heard_txd]
  rfl

theorem drive_ok {s : State} {r : List PinAnswer} (d : Drive) (h : s.pins = .ok :: r) :
    drive d s = ((d.apply { s with pins := r }).emit d.event, none) := by simp [drive, ask_listed h]

theorem drive_fail {s : State} {r : List PinAnswer} {c : Cause} {took : Bool} (d : Drive)
    (h : s.pins = .fail c took :: r) :
    drive d s = ((if took then d.apply { s with pins := r } else { s with pins := r }).emit (.failed (.drive d)),
      some c) := by simp [drive, ask_listed h]

theorem okPins_succ (n : Nat) (r : List PinAnswer) : okPins (n + 1) r = .ok :: okPins n r := rfl

theorem okPins_add (m n : Nat) (r : List PinAnswer) : okPins (m + n) r = okPins m (okPins n r) := by
  simp only [okPins, List.replicate_add, List.append_assoc]

theorem runBody_append (a b : List Micro) (s : State) :
    runBody (a ++ b) s = match runBody a s with
      | (s', none) => runBody b s'
      | (s', some f) => (s', some f) := by
  induction a generalizing s with
  | nil => rfl
  | cons m a ih =>
    simp only [List.cons_append, runBody]
    split <;> simp_all

/-! What an operation begins and ends with. -/

/-- An operation that gives a next state was not stopped, and the state is its completion. -/
theorem perform_next {i : Instr} {p : Plan} {s t : State} :
    perform i p s = .next t ↔ p.stop s = none ∧
      t = complete p (runFrames p.frames [] (issueOp (commandWord s.cfg.tab i) s)) := by
  unfold perform
  cases p.stop s with
  | none => simp [eq_comm]
  | some r => simp

/-- An operation that may begin gives a next state, whatever the environment answers. -/
theorem perform_completes {i : Instr} {p : Plan} {s : State} (h : p.stop s = none) :
    ∃ t, perform i p s = .next t := ⟨_, perform_next.2 ⟨h, rfl⟩⟩

/-! What no step touches. -/

/-- The fields that no step of an operation's list writes: power, the command word, the result registers, the
sequencer's own field, STATUS, the configuration and the host's side; and every event is added at the end of the
trace and counted. -/
structure Keeps (s t : State) : Prop where
  pwr : t.pwr = s.pwr
  cwr : t.cwr = s.cwr
  res : t.res = s.res
  rfld : t.rfld = s.rfld
  treg : t.treg = s.treg
  resSet : t.resSet = s.resSet
  rfldSet : t.rfldSet = s.rfldSet
  tregSet : t.tregSet = s.tregSet
  seq : t.seq = s.seq
  status : t.status = s.status
  cfg : t.cfg = s.cfg
  host : t.host = s.host
  bus : t.bus = s.bus
  trace : ∃ es, t.trace = s.trace ++ es ∧ t.evIdx = s.evIdx + es.length
  peer : s.PeerWf → t.PeerWf

theorem Keeps.refl (s : State) : Keeps s s :=
  ⟨rfl, rfl, rfl, rfl, rfl, rfl, rfl, rfl, rfl, rfl, rfl, rfl, rfl, ⟨[], by simp, rfl⟩, id⟩

theorem Keeps.trans {s t u : State} (a : Keeps s t) (b : Keeps t u) : Keeps s u := by
  obtain ⟨es, e1, e2⟩ := a.trace
  obtain ⟨fs, f1, f2⟩ := b.trace
  exact ⟨b.pwr.trans a.pwr, b.cwr.trans a.cwr, b.res.trans a.res, b.rfld.trans a.rfld, b.treg.trans a.treg,
    b.resSet.trans a.resSet, b.rfldSet.trans a.rfldSet, b.tregSet.trans a.tregSet, b.seq.trans a.seq,
    b.status.trans a.status, b.cfg.trans a.cfg, b.host.trans a.host, b.bus.trans a.bus,
    ⟨es ++ fs, by simp [f1, e1], by simp [f2, e2, Nat.add_assoc]⟩, fun h => b.peer (a.peer h)⟩

theorem Keeps.emit (e : Event) (s : State) : Keeps s (s.emit e) := by
  refine ⟨rfl, rfl, rfl, rfl, rfl, rfl, rfl, rfl, rfl, rfl, rfl, rfl, rfl, ⟨[e], rfl, rfl⟩, fun h p hp => ?_⟩
  rw [emit_peer, Option.map_eq_some_iff] at hp
  obtain ⟨q, hq, rfl⟩ := hp
  exact (h q hq).react _ _ _

theorem Keeps.ask (s : State) : Keeps s (ask s).2 := by
  unfold Machine.ask
  split <;> exact ⟨rfl, rfl, rfl, rfl, rfl, rfl, rfl, rfl, rfl, rfl, rfl, rfl, rfl, ⟨[], by simp, rfl⟩, id⟩

theorem Keeps.apply (d : Drive) (s : State) : Keeps s (d.apply s) := by
  cases d <;> exact ⟨rfl, rfl, rfl, rfl, rfl, rfl, rfl, rfl, rfl, rfl, rfl, rfl, rfl, ⟨[], by simp [Drive.apply], rfl⟩, id⟩

theorem Keeps.drive (d : Drive) (s : State) : Keeps s (drive d s).1 := by
  have h := Keeps.ask s
  unfold Machine.drive
  split
  · next e => rw [e] at h; exact (h.trans (Keeps.apply d _)).trans (Keeps.emit _ _)
  · next took _ e =>
    rw [e] at h
    cases took
    · exact h.trans (Keeps.emit _ _)
    · exact (h.trans (Keeps.apply d _)).trans (Keeps.emit _ _)

theorem Keeps.dataIn (s : State) : Keeps s (dataIn s).2 := by
  unfold Machine.dataIn
  repeat' split
  all_goals exact ⟨rfl, rfl, rfl, rfl, rfl, rfl, rfl, rfl, rfl, rfl, rfl, rfl, rfl, ⟨[], by simp, rfl⟩, id⟩

theorem Keeps.sample (s : State) : Keeps s (pinSampleData s).1 := by
  have h := Keeps.ask s
  unfold pinSampleData
  split
  · next e => rw [e] at h; exact (h.trans (Keeps.dataIn _)).trans (Keeps.emit _ _)
  · next e => rw [e] at h; exact h.trans (Keeps.emit _ _)

theorem Keeps.hold (s : State) : Keeps s (waitHold s) := by
  have h : Keeps s { s with dly := 0 } :=
    ⟨rfl, rfl, rfl, rfl, rfl, rfl, rfl, rfl, rfl, rfl, rfl, rfl, rfl, ⟨[], by simp, rfl⟩, id⟩
  exact h.trans (Keeps.emit _ _)

theorem Keeps.micro (m : Micro) (s : State) : Keeps s (m.run s).1 := by
  cases m with
  | loadTxd b => exact ⟨rfl, rfl, rfl, rfl, rfl, rfl, rfl, rfl, rfl, rfl, rfl, rfl, rfl, ⟨[], by simp [Micro.run], rfl⟩, id⟩
  | clearRxd => exact ⟨rfl, rfl, rfl, rfl, rfl, rfl, rfl, rfl, rfl, rfl, rfl, rfl, rfl, ⟨[], by simp [Micro.run], rfl⟩, id⟩
  | clk v t =>
    have h0 : Keeps s { s with t := t } :=
      ⟨rfl, rfl, rfl, rfl, rfl, rfl, rfl, rfl, rfl, rfl, rfl, rfl, rfl, ⟨[], by simp, rfl⟩, id⟩
    have h := h0.trans (Keeps.drive (.clk v) { s with t := t })
    simp only [Micro.run, pinDriveClk]
    split
    · next e =>
      rw [e] at h
      exact ⟨h.pwr, h.cwr, h.res, h.rfld, h.treg, h.resSet, h.rfldSet, h.tregSet, h.seq, h.status, h.cfg, h.host,
        h.bus, h.trace, h.peer⟩
    · next e => rw [e] at h; exact h
  | hold => exact Keeps.hold s
  | txBit t => exact Keeps.drive _ s
  | rxBit t =>
    have h := Keeps.sample s
    simp only [Micro.run]
    split
    · next e =>
      rw [e] at h
      exact ⟨h.pwr, h.cwr, h.res, h.rfld, h.treg, h.resSet, h.rfldSet, h.tregSet, h.seq, h.status, h.cfg, h.host,
        h.bus, h.trace, h.peer⟩
    · next e => rw [e] at h; exact h
  | rst v => exact Keeps.drive _ s
  | dir d => exact Keeps.drive _ s

theorem Keeps.body (ms : List Micro) (s : State) : Keeps s (runBody ms s).1 := by
  induction ms generalizing s with
  | nil => exact Keeps.refl s
  | cons m ms ih =>
    have h := Keeps.micro m s
    simp only [runBody]
    split
    · next e => rw [e] at h; exact h.trans (ih _)
    · next e => rw [e] at h; exact h

theorem Keeps.lower (e : Option Failure) (s : State) : Keeps s (lower e s).1 := by
  have h := Keeps.drive (.rst false) s
  unfold Machine.lower pinDriveRst
  split <;> next e => rw [e] at h; exact h

theorem Keeps.frame (f : Frame) (s : State) : Keeps s (f.run s).1 := by
  unfold Frame.run
  split
  · exact (Keeps.body _ _).trans (Keeps.lower _ _)
  · exact Keeps.body _ _

theorem Keeps.frames (fs : List Frame) (got : List Byte) (s : State) : Keeps s (runFrames fs got s).1 := by
  induction fs generalizing got s with
  | nil => exact Keeps.refl s
  | cons f fs ih =>
    have h := Keeps.frame f s
    simp only [runFrames]
    split
    · next e => rw [e] at h; exact h.trans (ih _ _)
    · next e => rw [e] at h; exact h

end Sys2Proof.Machine
end

