-- ==== Sys2Proof/Laws/Frames.lean ====
section
/-! SUPPORT. A receive run and the two frames when every pin action succeeds, whatever drives the data line. -/

namespace Sys2Proof.Machine

/-- A sample that succeeds gives some level, takes what it needs from the environment, and changes nothing else. -/
theorem dataIn_spec (s : State) :
    ∃ v lv dr, dataIn s = (v, { s with levels := lv, draws := dr }) := by
  unfold dataIn
  repeat' split
  all_goals exact ⟨_, _, _, rfl⟩

/-- While the block drives, the level is DATA_OUT and nothing is taken from the environment. -/
theorem dataIn_driving {s : State} (h : s.dataOe = true) : dataIn s = (s.dataOut, s) := by simp [dataIn, h]

/-- Without a peer and with the line released, the level is the next one listed. -/
theorem dataIn_listed {s : State} {v : Bool} {r : List Bool} (h : s.dataOe = false) (hp : s.peer = none)
    (hl : s.levels = v :: r) : dataIn s = (v, { s with levels := r }) := by
  simp [dataIn, h, peerLevel, hp, hl]

/-- The state after whole receive cycles: `heard`, with the receive register and the environment moved on. -/
def listened (es : List Event) (n : Nat) (t : BitVec 3) (r : List PinAnswer) (b : Byte) (lv : List Bool) (dr : Nat)
    (s : State) : State :=
  { heard es n t r s with rxd := b, levels := lv, draws := dr }

@[simp] theorem listened_pins (es : List Event) (n : Nat) (t : BitVec 3) (r : List PinAnswer) (b : Byte)
    (lv : List Bool) (dr : Nat) (s : State) : (listened es n t r b lv dr s).pins = r := rfl

@[simp] theorem listened_rxd (es : List Event) (n : Nat) (t : BitVec 3) (r : List PinAnswer) (b : Byte)
    (lv : List Bool) (dr : Nat) (s : State) : (listened es n t r b lv dr s).rxd = b := rfl

theorem listened_listened (es fs : List Event) (n m : Nat) (t t' : BitVec 3) (r r' : List PinAnswer) (b b' : Byte)
    (lv lv' : List Bool) (dr dr' : Nat) (s : State) :
    listened fs m t' r' b' lv' dr' (listened es n t r b lv dr s) = listened (es ++ fs) (n + m) t' r' b' lv' dr' s := by
  have h := heard_heard es fs n m t t' r r' s
  unfold listened
  rw [← h]
  rfl

/-- A sample whose pin action succeeds: one event with some level. -/
theorem pinSampleData_ok {s : State} {r : List PinAnswer} (h : s.pins = .ok :: r) :
    ∃ v lv dr, pinSampleData s = (State.emit (.smp v) { s with pins := r, levels := lv, draws := dr }, .ok v) := by
  obtain ⟨v, lv, dr, e⟩ := dataIn_spec { s with pins := r }
  exact ⟨v, lv, dr, by simp only [pinSampleData, ask_listed h, e]⟩

/-- The state just before the sample of a receive cycle with the action in the high phase. -/
def raised (t : BitVec 3) (r : List PinAnswer) (s : State) : State :=
  heard [.clk false, .dly, .clk true, .dly] 4 t r s

theorem runBody_clkCycle {s : State} {r : List PinAnswer} (h : s.pins = .ok :: .ok :: r) (t : BitVec 3)
    (ms : List Micro) :
    runBody ([.clk false t, .hold, .clk true t, .hold] ++ ms) s = runBody ms (raised t r s) := by
  cases hp : s.peer <;>
    simp [runBody, Micro.run, pinDriveClk, drive, ask, h, State.emit, Drive.apply, Drive.event, waitHold, raised,
      heard, lastLevel, Peer.hear, hp]

/-- A receive cycle with three successful pin actions receives some level into its bit. -/
theorem runBody_rxCycle {s : State} {r : List PinAnswer} (h : s.pins = .ok :: .ok :: .ok :: r)
    (t : BitVec 3) (ms : List Micro) :
    ∃ v lv dr, runBody (cycle false .rxBit t ++ ms) s =
      runBody ms (listened [.clk false, .dly, .clk true, .dly, .smp v] 5 t r (orBit s.rxd t.toNat v) lv dr s) := by
  obtain ⟨v, lv, dr, e⟩ := pinSampleData_ok (s := raised t (.ok :: r) s) (r := r) rfl
  have c : cycle false .rxBit t ++ ms = [.clk false t, .hold, .clk true t, .hold] ++ (.rxBit t :: ms) := rfl
  refine ⟨v, lv, dr, ?_⟩
  rw [c, runBody_clkCycle h]
  simp only [runBody, Micro.run, e]
  cases hp : s.peer <;> simp [State.emit, raised, heard, listened, lastLevel, Peer.hear, hp]

/-- The byte of eight levels, the first in bit 0 (R51). -/
def byteOf (v0 v1 v2 v3 v4 v5 v6 v7 : Bool) : Byte :=
  BitVec.ofBool v7 ++ BitVec.ofBool v6 ++ BitVec.ofBool v5 ++ BitVec.ofBool v4 ++ BitVec.ofBool v3 ++
    BitVec.ofBool v2 ++ BitVec.ofBool v1 ++ BitVec.ofBool v0

theorem byteOf_orBits (v0 v1 v2 v3 v4 v5 v6 v7 : Bool) :
    orBit (orBit (orBit (orBit (orBit (orBit (orBit (orBit 0 0 v0) 1 v1) 2 v2) 3 v3) 4 v4) 5 v5) 6 v6) 7 v7 =
      byteOf v0 v1 v2 v3 v4 v5 v6 v7 := by
  revert v0 v1 v2 v3 v4 v5 v6 v7; decide

theorem bitsOf_byteOf (v0 v1 v2 v3 v4 v5 v6 v7 : Bool) :
    bitsOf (byteOf v0 v1 v2 v3 v4 v5 v6 v7) = [v0, v1, v2, v3, v4, v5, v6, v7] := by
  revert v0 v1 v2 v3 v4 v5 v6 v7; decide

/-- A receive run from RXD = 0 with 24 successful pin actions receives some byte, the one its samples show. -/
theorem runBody_rxRun {s : State} {r : List PinAnswer} (h : s.pins = okPins 24 r) (h0 : s.rxd = 0)
    (ms : List Micro) :
    ∃ b lv dr, runBody (engine false .rxBit ++ ms) s = runBody ms (listened (rxTrace b) 40 7 r b lv dr s) := by
  have e : engine false .rxBit ++ ms = cycle false .rxBit 0 ++ (cycle false .rxBit 1 ++ (cycle false .rxBit 2 ++
      (cycle false .rxBit 3 ++ (cycle false .rxBit 4 ++ (cycle false .rxBit 5 ++ (cycle false .rxBit 6 ++
      (cycle false .rxBit 7 ++ ms))))))) := by
    simp [engine, cycleIndices]
  rw [e]
  obtain ⟨v0, l0, d0, e0⟩ := runBody_rxCycle (s := s) (r := okPins 21 r) h 0 _
  rw [e0]
  obtain ⟨v1, l1, d1, e1⟩ := runBody_rxCycle (s := listened _ _ _ (okPins 21 r) _ l0 d0 s) (r := okPins 18 r) rfl 1 _
  rw [e1, listened_listened]
  obtain ⟨v2, l2, d2, e2⟩ := runBody_rxCycle (s := listened _ _ _ (okPins 18 r) _ l1 d1 s) (r := okPins 15 r) rfl 2 _
  rw [e2, listened_listened]
  obtain ⟨v3, l3, d3, e3⟩ := runBody_rxCycle (s := listened _ _ _ (okPins 15 r) _ l2 d2 s) (r := okPins 12 r) rfl 3 _
  rw [e3, listened_listened]
  obtain ⟨v4, l4, d4, e4⟩ := runBody_rxCycle (s := listened _ _ _ (okPins 12 r) _ l3 d3 s) (r := okPins 9 r) rfl 4 _
  rw [e4, listened_listened]
  obtain ⟨v5, l5, d5, e5⟩ := runBody_rxCycle (s := listened _ _ _ (okPins 9 r) _ l4 d4 s) (r := okPins 6 r) rfl 5 _
  rw [e5, listened_listened]
  obtain ⟨v6, l6, d6, e6⟩ := runBody_rxCycle (s := listened _ _ _ (okPins 6 r) _ l5 d5 s) (r := okPins 3 r) rfl 6 _
  rw [e6, listened_listened]
  obtain ⟨v7, l7, d7, e7⟩ := runBody_rxCycle (s := listened _ _ _ (okPins 3 r) _ l6 d6 s) (r := r) rfl 7 _
  rw [e7, listened_listened]
  refine ⟨byteOf v0 v1 v2 v3 v4 v5 v6 v7, l7, d7, ?_⟩
  rw [rxTrace, bitsOf_byteOf]
  simp only [listened_rxd, h0]
  rw [← byteOf_orBits]
  rfl

/-- The first two steps of a transaction when both pin actions succeed. -/
theorem runBody_open {s : State} {r : List PinAnswer} (h : s.pins = .ok :: .ok :: r) (ms : List Micro) :
    runBody (.rst true :: .dir .out :: ms) s =
      runBody ms { s with
        rst := true, dataOe := true, evIdx := s.evIdx + 2, pins := r, trace := s.trace ++ [.rst true, .dir .out]
        peer := s.peer.map (Peer.hear s.cfg s.dataOut [.rst true, .dir .out]) } := by
  cases hp : s.peer <;>
    simp [runBody, Micro.run, pinDriveRst, pinSetDataDir, drive, ask, h, State.emit, Drive.apply, Drive.event,
      Peer.hear, hp]

/-- A write frame in which every pin action succeeds (R160). -/
theorem writeFrame_ok {s : State} {r : List PinAnswer} (cmd dat : Byte) (h : s.pins = okPins 51 r) :
    (writeFrame cmd dat).run s =
      ({ s with
          clk := true, dataOut := dat.getLsbD 7, dataOe := true, rst := false, txd := dat, t := 7, ph := true
          evIdx := s.evIdx + 83, dly := 0, pins := r, trace := s.trace ++ writeTrace cmd dat
          peer := s.peer.map (Peer.hear s.cfg s.dataOut (writeTrace cmd dat)) }, none) := by
  have b : (writeFrame cmd dat).body = .rst true :: .dir .out :: .loadTxd cmd ::
      (engine true .txBit ++ (.loadTxd dat :: (engine true .txBit ++ []))) := by
    simp [writeFrame, transmit]
  have c : (writeFrame cmd dat).closes = true := rfl
  simp only [Frame.run, c, if_true, b]
  rw [runBody_open (r := okPins 49 r) (by simpa [okPins, List.replicate] using h)]
  simp only [runBody, Micro.run]
  rw [runBody_txRun (r := okPins 25 r) rfl]
  simp only [runBody, Micro.run]
  rw [runBody_txRun (r := okPins 1 r) rfl]
  simp only [runBody, lower, pinDriveRst]
  rw [drive_ok (r := r) _ rfl]
  cases hp : s.peer <;>
    simp [heard, State.emit, Drive.apply, Drive.event, writeTrace, Peer.hear,
      txTrace, bitsOf, lastLevel]

/-- A read frame in which every pin action succeeds, whatever drives the data line (R161). -/
theorem readFrame_ok {s : State} {r : List PinAnswer} (cmd : Byte) (h : s.pins = okPins 52 r) :
    ∃ b lv dr, (readFrame cmd).run s =
      ({ s with
          clk := true, dataOut := cmd.getLsbD 7, dataOe := false, rst := false, txd := cmd, rxd := b, t := 7, ph := true
          evIdx := s.evIdx + 84, dly := 0, pins := r, trace := s.trace ++ readTrace cmd b, levels := lv, draws := dr
          peer := s.peer.map (Peer.hear s.cfg s.dataOut (readTrace cmd b)) }, none) := by
  have b : (readFrame cmd).body = .rst true :: .dir .out :: .loadTxd cmd ::
      (engine true .txBit ++ (.dir .inp :: .clearRxd :: (engine false .rxBit ++ []))) := by
    simp [readFrame, transmit, receive]
  have c : (readFrame cmd).closes = true := rfl
  simp only [Frame.run, c, if_true, b]
  rw [runBody_open (r := okPins 50 r) (by simpa [okPins, List.replicate] using h)]
  simp only [runBody, Micro.run]
  rw [runBody_txRun (r := okPins 26 r) rfl]
  simp only [runBody, Micro.run, pinSetDataDir]
  rw [drive_ok (r := okPins 25 r) _ rfl]
  simp only []
  obtain ⟨b, lv, dr, e⟩ := runBody_rxRun
    (s := { State.emit (Drive.event (.dir .inp)) (Drive.apply (.dir .inp) { heard (txTrace cmd) 40 7 (okPins 26 r)
      { s with
        rst := true, dataOe := true, evIdx := s.evIdx + 2, pins := okPins 50 r, txd := cmd
        trace := s.trace ++ [.rst true, .dir .out]
        peer := s.peer.map (Peer.hear s.cfg s.dataOut [.rst true, .dir .out]) } with pins := okPins 25 r }) with
      rxd := 0 }) (r := okPins 1 r) rfl rfl []
  refine ⟨b, lv, dr, ?_⟩
  simp only [e, runBody, lower, pinDriveRst]
  rw [drive_ok (r := r) _ rfl]
  cases hp : s.peer <;>
    simp [listened, heard, State.emit, Drive.apply, Drive.event, readTrace, Peer.hear,
      txTrace, rxTrace, bitsOf, lastLevel]

end Sys2Proof.Machine
end

