-- ==== Sys2Proof/Laws/PerInstr.lean ====
section
/-! SUPPORT. Per instruction: the code of the operation lies in its own row of spec/opcode_table.json, written out here
once more from the table (match and mask; the wire rows under the suggested table of R87). -/

namespace Sys2Proof.Laws.Table

/-- The command word of an operation matches a row's match under its mask, whatever the command table. -/
def InRow (i : Instr) (pat mask : Word) : Prop := ∀ tab, encode tab i = .cw (commandWord tab i) ∧
  commandWord tab i &&& mask = pat

/-- The code of an operation lies in its row of the opcode table (R82, R85, R87). -/
def Statement (i : Instr) : Prop :=
  match i with
  | .txbyte src => InRow (.txbyte src) 0x11000000 0xFFFFFF00
  | .txbyteH src => InRow (.txbyteH src) 0x10000000 0xFFFFFF00
  | .rxbyte => InRow (.rxbyte) 0x12000000 0xFFFFFFFF
  | .rxbyteL => InRow (.rxbyteL) 0x13000000 0xFFFFFFFF
  | .wrtxn cmd dat => InRow (.wrtxn cmd dat) 0x20000000 0xFF00FF00
  | .rdtxn cmd => InRow (.rdtxn cmd) 0x30000000 0xFF00FFFF
  | .wrreg k f1 f0 tens ones => InRow (.wrreg k f1 f0 tens ones) 0x40000000 0xF8FCF0F0
  | .rdreg k => InRow (.rdreg k) 0x50000000 0xF8FFFFFF
  | .encSec f1 f0 tens ones => InRow (.encSec f1 f0 tens ones) 0x60000000 0xFFFCF0F0
  | .encMin f1 f0 tens ones => InRow (.encMin f1 f0 tens ones) 0x61000000 0xFFFCF0F0
  | .encHour f1 f0 tens ones => InRow (.encHour f1 f0 tens ones) 0x62000000 0xFFFCF0F0
  | .encDate f1 f0 tens ones => InRow (.encDate f1 f0 tens ones) 0x63000000 0xFFFCF0F0
  | .encMonth f1 f0 tens ones => InRow (.encMonth f1 f0 tens ones) 0x64000000 0xFFFCF0F0
  | .encYear f1 f0 tens ones => InRow (.encYear f1 f0 tens ones) 0x65000000 0xFFFCF0F0
  | .encDay f1 f0 tens ones => InRow (.encDay f1 f0 tens ones) 0x66000000 0xFFFCF0F0
  | .encWp f1 f0 tens ones => InRow (.encWp f1 f0 tens ones) 0x67000000 0xFFFCF0F0
  | .decSec b => InRow (.decSec b) 0x70000000 0xFFFFFF00
  | .decMin b => InRow (.decMin b) 0x71000000 0xFFFFFF00
  | .decHour b => InRow (.decHour b) 0x72000000 0xFFFFFF00
  | .decDate b => InRow (.decDate b) 0x73000000 0xFFFFFF00
  | .decMonth b => InRow (.decMonth b) 0x74000000 0xFFFFFF00
  | .decYear b => InRow (.decYear b) 0x75000000 0xFFFFFF00
  | .decDay b => InRow (.decDay b) 0x76000000 0xFFFFFF00
  | .decWp b => InRow (.decWp b) 0x77000000 0xFFFFFF00
  | .rsttimer => InRow (.rsttimer) 0x80000000 0xFFFFFFFF
  | .rdtimer => InRow (.rdtimer) 0x90000000 0xFFFFFFFF
  | .setrst v => InRow (.setrst v) 0xA0000000 0xFEFFFFFF
  | .setdir d => InRow (.setdir d) 0xB0000000 0xFEFFFFFF
  | .reserved0 rest => InRow (.reserved0 rest) 0x00000000 0xF0000000
  | .reservedC rest => InRow (.reservedC rest) 0xC0000000 0xF0000000
  | .reservedD rest => InRow (.reservedD rest) 0xD0000000 0xF0000000
  | .reservedE rest => InRow (.reservedE rest) 0xE0000000 0xF0000000
  | .reservedF rest => InRow (.reservedF rest) 0xF0000000 0xF0000000
  | .cmdSecWr dat => encode CmdTab.suggested (.cmdSecWr dat) = .wire 0x80 dat
  | .cmdSecRd => encode CmdTab.suggested (.cmdSecRd) = .wire 0x81 0
  | .cmdMinWr dat => encode CmdTab.suggested (.cmdMinWr dat) = .wire 0x82 dat
  | .cmdMinRd => encode CmdTab.suggested (.cmdMinRd) = .wire 0x83 0
  | .cmdHourWr dat => encode CmdTab.suggested (.cmdHourWr dat) = .wire 0x84 dat
  | .cmdHourRd => encode CmdTab.suggested (.cmdHourRd) = .wire 0x85 0
  | .cmdDateWr dat => encode CmdTab.suggested (.cmdDateWr dat) = .wire 0x86 dat
  | .cmdDateRd => encode CmdTab.suggested (.cmdDateRd) = .wire 0x87 0
  | .cmdMonthWr dat => encode CmdTab.suggested (.cmdMonthWr dat) = .wire 0x88 dat
  | .cmdMonthRd => encode CmdTab.suggested (.cmdMonthRd) = .wire 0x89 0
  | .cmdDayWr dat => encode CmdTab.suggested (.cmdDayWr dat) = .wire 0x8A dat
  | .cmdDayRd => encode CmdTab.suggested (.cmdDayRd) = .wire 0x8B 0
  | .cmdYearWr dat => encode CmdTab.suggested (.cmdYearWr dat) = .wire 0x8C dat
  | .cmdYearRd => encode CmdTab.suggested (.cmdYearRd) = .wire 0x8D 0
  | .cmdWpWr dat => encode CmdTab.suggested (.cmdWpWr dat) = .wire 0x8E dat
  | .cmdWpRd => encode CmdTab.suggested (.cmdWpRd) = .wire 0x8F 0

/-- A word of fields lies in a row when each field does. -/
theorem inRow_of_parts {i : Instr} {p m : Parts} {pat mask : Word} (hi : i.isCommand = true) (hm : m.toWord = mask)
    (hp : p.toWord = pat)
    (h : ∀ tab, (encodeParts tab i).opc &&& m.opc = p.opc ∧ (encodeParts tab i).sub &&& m.sub = p.sub ∧
      (encodeParts tab i).a &&& m.a = p.a ∧ (encodeParts tab i).b &&& m.b = p.b ∧ (encodeParts tab i).c &&& m.c = p.c) :
    InRow i pat mask := by
  intro tab
  refine ⟨(by cases i <;> first | rfl | exact absurd hi Bool.false_ne_true), ?_⟩
  obtain ⟨h1, h2, h3, h4, h5⟩ := h tab
  rw [commandWord, ← hm, Parts.toWord_and, h1, h2, h3, h4, h5]
  exact hp

theorem digit_high (x : BitVec 4) : byteOfDigit x &&& 0xF0 = 0 := by revert x; decide

theorem flags_high (f1 f0 : Bool) : aOfFlags f1 f0 &&& 0xFC = 0 := by revert f1 f0; decide

theorem kind_high (k : Kind) : subOfKind k &&& 8 = 0 := by cases k <;> rfl

theorem txbyte (src : Byte) : Statement (.txbyte src) :=
  inRow_of_parts (p := ⟨0x1, 0x1, 0x0, 0x0, 0x0⟩) (m := ⟨0xF, 0xF, 0xFF, 0xFF, 0x0⟩) rfl rfl rfl
    (fun _ => by simp [encodeParts])

theorem txbyteH (src : Byte) : Statement (.txbyteH src) :=
  inRow_of_parts (p := ⟨0x1, 0x0, 0x0, 0x0, 0x0⟩) (m := ⟨0xF, 0xF, 0xFF, 0xFF, 0x0⟩) rfl rfl rfl
    (fun _ => by simp [encodeParts])

theorem rxbyte : Statement .rxbyte :=
  inRow_of_parts (p := ⟨0x1, 0x2, 0x0, 0x0, 0x0⟩) (m := ⟨0xF, 0xF, 0xFF, 0xFF, 0xFF⟩) rfl rfl rfl
    (fun _ => by simp [encodeParts])

theorem rxbyteL : Statement .rxbyteL :=
  inRow_of_parts (p := ⟨0x1, 0x3, 0x0, 0x0, 0x0⟩) (m := ⟨0xF, 0xF, 0xFF, 0xFF, 0xFF⟩) rfl rfl rfl
    (fun _ => by simp [encodeParts])

theorem wrtxn (cmd dat : Byte) : Statement (.wrtxn cmd dat) :=
  inRow_of_parts (p := ⟨0x2, 0x0, 0x0, 0x0, 0x0⟩) (m := ⟨0xF, 0xF, 0x0, 0xFF, 0x0⟩) rfl rfl rfl
    (fun _ => by simp [encodeParts])

theorem rdtxn (cmd : Byte) : Statement (.rdtxn cmd) :=
  inRow_of_parts (p := ⟨0x3, 0x0, 0x0, 0x0, 0x0⟩) (m := ⟨0xF, 0xF, 0x0, 0xFF, 0xFF⟩) rfl rfl rfl
    (fun _ => by simp [encodeParts])

theorem wrreg (k : Kind) (f1 f0 : Bool) (tens ones : BitVec 4) : Statement (.wrreg k f1 f0 tens ones) :=
  inRow_of_parts (p := ⟨0x4, 0x0, 0x0, 0x0, 0x0⟩) (m := ⟨0xF, 0x8, 0xFC, 0xF0, 0xF0⟩) rfl rfl rfl
    (fun _ => ⟨by simp [encodeParts, partsK], kind_high k, flags_high f1 f0, digit_high tens, digit_high ones⟩)

theorem rdreg (k : Kind) : Statement (.rdreg k) :=
  inRow_of_parts (p := ⟨0x5, 0x0, 0x0, 0x0, 0x0⟩) (m := ⟨0xF, 0x8, 0xFF, 0xFF, 0xFF⟩) rfl rfl rfl
    (fun _ => ⟨by simp [encodeParts], kind_high k, by simp [encodeParts], by simp [encodeParts], by simp [encodeParts]⟩)

theorem encSec (f1 f0 : Bool) (tens ones : BitVec 4) : Statement (.encSec f1 f0 tens ones) :=
  inRow_of_parts (p := ⟨0x6, 0x0, 0x0, 0x0, 0x0⟩) (m := ⟨0xF, 0xF, 0xFC, 0xF0, 0xF0⟩) rfl rfl rfl
    (fun _ => ⟨by simp [encodeParts, partsK], by simp [encodeParts, partsK, subOfKind, Kind.code], flags_high f1 f0,
      digit_high tens, digit_high ones⟩)

theorem encMin (f1 f0 : Bool) (tens ones : BitVec 4) : Statement (.encMin f1 f0 tens ones) :=
  inRow_of_parts (p := ⟨0x6, 0x1, 0x0, 0x0, 0x0⟩) (m := ⟨0xF, 0xF, 0xFC, 0xF0, 0xF0⟩) rfl rfl rfl
    (fun _ => ⟨by simp [encodeParts, partsK], by simp [encodeParts, partsK, subOfKind, Kind.code], flags_high f1 f0,
      digit_high tens, digit_high ones⟩)

theorem encHour (f1 f0 : Bool) (tens ones : BitVec 4) : Statement (.encHour f1 f0 tens ones) :=
  inRow_of_parts (p := ⟨0x6, 0x2, 0x0, 0x0, 0x0⟩) (m := ⟨0xF, 0xF, 0xFC, 0xF0, 0xF0⟩) rfl rfl rfl
    (fun _ => ⟨by simp [encodeParts, partsK], by simp [encodeParts, partsK, subOfKind, Kind.code], flags_high f1 f0,
      digit_high tens, digit_high ones⟩)

theorem encDate (f1 f0 : Bool) (tens ones : BitVec 4) : Statement (.encDate f1 f0 tens ones) :=
  inRow_of_parts (p := ⟨0x6, 0x3, 0x0, 0x0, 0x0⟩) (m := ⟨0xF, 0xF, 0xFC, 0xF0, 0xF0⟩) rfl rfl rfl
    (fun _ => ⟨by simp [encodeParts, partsK], by simp [encodeParts, partsK, subOfKind, Kind.code], flags_high f1 f0,
      digit_high tens, digit_high ones⟩)

theorem encMonth (f1 f0 : Bool) (tens ones : BitVec 4) : Statement (.encMonth f1 f0 tens ones) :=
  inRow_of_parts (p := ⟨0x6, 0x4, 0x0, 0x0, 0x0⟩) (m := ⟨0xF, 0xF, 0xFC, 0xF0, 0xF0⟩) rfl rfl rfl
    (fun _ => ⟨by simp [encodeParts, partsK], by simp [encodeParts, partsK, subOfKind, Kind.code], flags_high f1 f0,
      digit_high tens, digit_high ones⟩)

theorem encYear (f1 f0 : Bool) (tens ones : BitVec 4) : Statement (.encYear f1 f0 tens ones) :=
  inRow_of_parts (p := ⟨0x6, 0x5, 0x0, 0x0, 0x0⟩) (m := ⟨0xF, 0xF, 0xFC, 0xF0, 0xF0⟩) rfl rfl rfl
    (fun _ => ⟨by simp [encodeParts, partsK], by simp [encodeParts, partsK, subOfKind, Kind.code], flags_high f1 f0,
      digit_high tens, digit_high ones⟩)

theorem encDay (f1 f0 : Bool) (tens ones : BitVec 4) : Statement (.encDay f1 f0 tens ones) :=
  inRow_of_parts (p := ⟨0x6, 0x6, 0x0, 0x0, 0x0⟩) (m := ⟨0xF, 0xF, 0xFC, 0xF0, 0xF0⟩) rfl rfl rfl
    (fun _ => ⟨by simp [encodeParts, partsK], by simp [encodeParts, partsK, subOfKind, Kind.code], flags_high f1 f0,
      digit_high tens, digit_high ones⟩)

theorem encWp (f1 f0 : Bool) (tens ones : BitVec 4) : Statement (.encWp f1 f0 tens ones) :=
  inRow_of_parts (p := ⟨0x6, 0x7, 0x0, 0x0, 0x0⟩) (m := ⟨0xF, 0xF, 0xFC, 0xF0, 0xF0⟩) rfl rfl rfl
    (fun _ => ⟨by simp [encodeParts, partsK], by simp [encodeParts, partsK, subOfKind, Kind.code], flags_high f1 f0,
      digit_high tens, digit_high ones⟩)

theorem decSec (b : Byte) : Statement (.decSec b) :=
  inRow_of_parts (p := ⟨0x7, 0x0, 0x0, 0x0, 0x0⟩) (m := ⟨0xF, 0xF, 0xFF, 0xFF, 0x0⟩) rfl rfl rfl
    (fun _ => by simp [encodeParts, subOfKind, Kind.code])

theorem decMin (b : Byte) : Statement (.decMin b) :=
  inRow_of_parts (p := ⟨0x7, 0x1, 0x0, 0x0, 0x0⟩) (m := ⟨0xF, 0xF, 0xFF, 0xFF, 0x0⟩) rfl rfl rfl
    (fun _ => by simp [encodeParts, subOfKind, Kind.code])

theorem decHour (b : Byte) : Statement (.decHour b) :=
  inRow_of_parts (p := ⟨0x7, 0x2, 0x0, 0x0, 0x0⟩) (m := ⟨0xF, 0xF, 0xFF, 0xFF, 0x0⟩) rfl rfl rfl
    (fun _ => by simp [encodeParts, subOfKind, Kind.code])

theorem decDate (b : Byte) : Statement (.decDate b) :=
  inRow_of_parts (p := ⟨0x7, 0x3, 0x0, 0x0, 0x0⟩) (m := ⟨0xF, 0xF, 0xFF, 0xFF, 0x0⟩) rfl rfl rfl
    (fun _ => by simp [encodeParts, subOfKind, Kind.code])

theorem decMonth (b : Byte) : Statement (.decMonth b) :=
  inRow_of_parts (p := ⟨0x7, 0x4, 0x0, 0x0, 0x0⟩) (m := ⟨0xF, 0xF, 0xFF, 0xFF, 0x0⟩) rfl rfl rfl
    (fun _ => by simp [encodeParts, subOfKind, Kind.code])

theorem decYear (b : Byte) : Statement (.decYear b) :=
  inRow_of_parts (p := ⟨0x7, 0x5, 0x0, 0x0, 0x0⟩) (m := ⟨0xF, 0xF, 0xFF, 0xFF, 0x0⟩) rfl rfl rfl
    (fun _ => by simp [encodeParts, subOfKind, Kind.code])

theorem decDay (b : Byte) : Statement (.decDay b) :=
  inRow_of_parts (p := ⟨0x7, 0x6, 0x0, 0x0, 0x0⟩) (m := ⟨0xF, 0xF, 0xFF, 0xFF, 0x0⟩) rfl rfl rfl
    (fun _ => by simp [encodeParts, subOfKind, Kind.code])

theorem decWp (b : Byte) : Statement (.decWp b) :=
  inRow_of_parts (p := ⟨0x7, 0x7, 0x0, 0x0, 0x0⟩) (m := ⟨0xF, 0xF, 0xFF, 0xFF, 0x0⟩) rfl rfl rfl
    (fun _ => by simp [encodeParts, subOfKind, Kind.code])

theorem rsttimer : Statement .rsttimer :=
  inRow_of_parts (p := ⟨0x8, 0x0, 0x0, 0x0, 0x0⟩) (m := ⟨0xF, 0xF, 0xFF, 0xFF, 0xFF⟩) rfl rfl rfl
    (fun _ => by simp [encodeParts])

theorem rdtimer : Statement .rdtimer :=
  inRow_of_parts (p := ⟨0x9, 0x0, 0x0, 0x0, 0x0⟩) (m := ⟨0xF, 0xF, 0xFF, 0xFF, 0xFF⟩) rfl rfl rfl
    (fun _ => by simp [encodeParts])

theorem setrst (v : Bool) : Statement (.setrst v) :=
  inRow_of_parts (p := ⟨0xA, 0x0, 0x0, 0x0, 0x0⟩) (m := ⟨0xF, 0xE, 0xFF, 0xFF, 0xFF⟩) rfl rfl rfl
    (fun _ => by cases v <;> simp [encodeParts])

theorem setdir (d : Dir) : Statement (.setdir d) :=
  inRow_of_parts (p := ⟨0xB, 0x0, 0x0, 0x0, 0x0⟩) (m := ⟨0xF, 0xE, 0xFF, 0xFF, 0xFF⟩) rfl rfl rfl
    (fun _ => by cases d <;> simp [encodeParts])

theorem reserved0 (rest : BitVec 28) : Statement (.reserved0 rest) :=
  inRow_of_parts (p := ⟨0x0, 0x0, 0x0, 0x0, 0x0⟩) (m := ⟨0xF, 0x0, 0x0, 0x0, 0x0⟩) rfl rfl rfl
    (fun _ => by simp [encodeParts, partsReserved])

theorem reservedC (rest : BitVec 28) : Statement (.reservedC rest) :=
  inRow_of_parts (p := ⟨0xC, 0x0, 0x0, 0x0, 0x0⟩) (m := ⟨0xF, 0x0, 0x0, 0x0, 0x0⟩) rfl rfl rfl
    (fun _ => by simp [encodeParts, partsReserved])

theorem reservedD (rest : BitVec 28) : Statement (.reservedD rest) :=
  inRow_of_parts (p := ⟨0xD, 0x0, 0x0, 0x0, 0x0⟩) (m := ⟨0xF, 0x0, 0x0, 0x0, 0x0⟩) rfl rfl rfl
    (fun _ => by simp [encodeParts, partsReserved])

theorem reservedE (rest : BitVec 28) : Statement (.reservedE rest) :=
  inRow_of_parts (p := ⟨0xE, 0x0, 0x0, 0x0, 0x0⟩) (m := ⟨0xF, 0x0, 0x0, 0x0, 0x0⟩) rfl rfl rfl
    (fun _ => by simp [encodeParts, partsReserved])

theorem reservedF (rest : BitVec 28) : Statement (.reservedF rest) :=
  inRow_of_parts (p := ⟨0xF, 0x0, 0x0, 0x0, 0x0⟩) (m := ⟨0xF, 0x0, 0x0, 0x0, 0x0⟩) rfl rfl rfl
    (fun _ => by simp [encodeParts, partsReserved])

theorem cmdSecWr (dat : Byte) : Statement (.cmdSecWr dat) := rfl

theorem cmdSecRd : Statement .cmdSecRd := rfl

theorem cmdMinWr (dat : Byte) : Statement (.cmdMinWr dat) := rfl

theorem cmdMinRd : Statement .cmdMinRd := rfl

theorem cmdHourWr (dat : Byte) : Statement (.cmdHourWr dat) := rfl

theorem cmdHourRd : Statement .cmdHourRd := rfl

theorem cmdDateWr (dat : Byte) : Statement (.cmdDateWr dat) := rfl

theorem cmdDateRd : Statement .cmdDateRd := rfl

theorem cmdMonthWr (dat : Byte) : Statement (.cmdMonthWr dat) := rfl

theorem cmdMonthRd : Statement .cmdMonthRd := rfl

theorem cmdDayWr (dat : Byte) : Statement (.cmdDayWr dat) := rfl

theorem cmdDayRd : Statement .cmdDayRd := rfl

theorem cmdYearWr (dat : Byte) : Statement (.cmdYearWr dat) := rfl

theorem cmdYearRd : Statement .cmdYearRd := rfl

theorem cmdWpWr (dat : Byte) : Statement (.cmdWpWr dat) := rfl

theorem cmdWpRd : Statement .cmdWpRd := rfl

end Sys2Proof.Laws.Table
end

