-- ==== Sys2Proof/Tests/Slice0.lean ====
section
/-! SUPPORT. Tests of the model against spec/95_test_vectors.md (the vector is named at each), the well-formedness smoke
tests, and a witness for the hypotheses of every statement in Certificates/Slice0/Obligations.lean. -/

namespace Sys2Proof.Tests

open Sys2Proof.Machine

/-- A configuration with the suggested command table (R87) and the control constants of the vectors (95, section 5). -/
def board : Config := ⟨CmdTab.suggested, 0x90, 0x92, 0xA5, 0x5A, 2⟩

/-- The reset state with that configuration. -/
def bench : State := { State.reset with cfg := board }

/-- `bench` with `n` answers ok, then those of `r`. -/
def benchPins (n : Nat) (r : List PinAnswer) : State := { bench with pins := okPins n r }

/-- `benchPins` with levels listed for the data line. -/
def benchLevels (n : Nat) (r : List PinAnswer) (lv : List Bool) : State := { benchPins n r with levels := lv }

/-- `benchPins` after `SETDIR OUT`. -/
def benchOut (n : Nat) (r : List PinAnswer) : State := { benchPins n r with dataOe := true }

/-- `benchPins` with PEER-ECHO and its memory. -/
def benchPeer (n : Nat) (r : List PinAnswer) (m : Memory) : State :=
  { benchPins n r with peer := some { Peer.fresh with mem := m } }

/-- A failure code. -/
def bad (c : Byte) (h : c ≠ 0 := by decide) (took : Bool := true) : PinAnswer := .fail ⟨c, h⟩ took

/-- The outcome is a next state that passes. -/
def gives (o : Host.Outcome State Fault Refusal) (f : State → Bool) : Bool :=
  match o with
  | .next t => f t
  | .fault _ => false
  | .refused _ => false

/-- The outcome is this refusal. -/
def refuses (o : Host.Outcome State Fault Refusal) (r : Refusal) : Bool :=
  match o with
  | .next _ => false
  | .fault _ => false
  | .refused x => x == r

/-- The outcome is a fault. -/
def faults (o : Host.Outcome State Fault Refusal) : Bool :=
  match o with
  | .next _ => false
  | .fault _ => true
  | .refused _ => false

/-- The levels of the DAT events of a trace, 1 for high. -/
def dats : List Event → List Nat
  | [] => []
  | .dat v :: es => (if v then 1 else 0) :: dats es
  | _ :: es => dats es

/-- Levels from 0 and 1. -/
def levelsOf (l : List Nat) : List Bool := l.map (· == 1)

/-- The lines CLK, DATA_OUT, DATA_OE, RST are these. -/
def lines (t : State) (c d o r : Bool) : Bool := t.clk == c && t.dataOut == d && t.dataOe == o && t.rst == r

/-! Decoding: words written out bit by bit from R80 to R85. -/

theorem test_decode_B : decodeWord 0b0001_0001_00000000_00000000_10110010 = .ok (.txbyte 0xB2) ∧
    decodeWord 0b0001_0000_00000000_00000000_00000001 = .ok (.txbyteH 0x01) ∧
    decodeWord 0b0001_0010_00000000_00000000_00000000 = .ok .rxbyte ∧
    decodeWord 0b0001_0011_00000000_00000000_00000000 = .ok .rxbyteL := by decide

theorem test_decode_T : decodeWord 0b0010_0000_10000000_00000000_01011001 = .ok (.wrtxn 0x80 0x59) ∧
    decodeWord 0b0011_0000_10000001_00000000_00000000 = .ok (.rdtxn 0x81) := by decide

theorem test_decode_registers :
    decodeWord 0b0100_0010_00000011_00000001_00000001 = .ok (.wrreg .hour true true 1 1) ∧
    decodeWord 0b0100_0000_00000010_00000000_00000000 = .ok (.wrreg .sec true false 0 0) ∧
    decodeWord 0b0101_0101_00000000_00000000_00000000 = .ok (.rdreg .year) := by decide

theorem test_decode_encoders : decodeWord 0b0110_0000_00000010_00000101_00001001 = .ok (.encSec true false 5 9) ∧
    decodeWord 0b0110_0001_00000000_00000011_00000111 = .ok (.encMin false false 3 7) ∧
    decodeWord 0b0110_0010_00000001_00000001_00000010 = .ok (.encHour false true 1 2) ∧
    decodeWord 0b0110_0011_00000000_00000011_00000001 = .ok (.encDate false false 3 1) ∧
    decodeWord 0b0110_0100_00000000_00000001_00000010 = .ok (.encMonth false false 1 2) ∧
    decodeWord 0b0110_0101_00000000_00000010_00000110 = .ok (.encYear false false 2 6) ∧
    decodeWord 0b0110_0110_00000000_00000000_00000011 = .ok (.encDay false false 0 3) ∧
    decodeWord 0b0110_0111_00000010_00000000_00000000 = .ok (.encWp true false 0 0) := by decide

theorem test_decode_decoders : decodeWord 0b0111_0000_00000000_00000000_11011001 = .ok (.decSec 0xD9) ∧
    decodeWord 0b0111_0001_00000000_00000000_10110111 = .ok (.decMin 0xB7) ∧
    decodeWord 0b0111_0010_00000000_00000000_10110001 = .ok (.decHour 0xB1) ∧
    decodeWord 0b0111_0011_00000000_00000000_00110001 = .ok (.decDate 0x31) ∧
    decodeWord 0b0111_0100_00000000_00000000_00010010 = .ok (.decMonth 0x12) ∧
    decodeWord 0b0111_0101_00000000_00000000_00100110 = .ok (.decYear 0x26) ∧
    decodeWord 0b0111_0110_00000000_00000000_11110011 = .ok (.decDay 0xF3) ∧
    decodeWord 0b0111_0111_00000000_00000000_10000000 = .ok (.decWp 0x80) := by decide

theorem test_decode_sequences_pins : decodeWord 0b1000_0000_00000000_00000000_00000000 = .ok .rsttimer ∧
    decodeWord 0b1001_0000_00000000_00000000_00000000 = .ok .rdtimer ∧
    decodeWord 0b1010_0001_00000000_00000000_00000000 = .ok (.setrst true) ∧
    decodeWord 0b1010_0000_00000000_00000000_00000000 = .ok (.setrst false) ∧
    decodeWord 0b1011_0001_00000000_00000000_00000000 = .ok (.setdir .out) ∧
    decodeWord 0b1011_0000_00000000_00000000_00000000 = .ok (.setdir .inp) := by decide

theorem test_decode_reserved : decodeWord 0x00000001 = .ok (.reserved0 1) ∧ decodeWord 0xC0000000 = .ok (.reservedC 0) ∧
    decodeWord 0xD8000000 = .ok (.reservedD 0x8000000) ∧ decodeWord 0xE0000100 = .ok (.reservedE 0x100) ∧
    decodeWord 0xFFFFFFFF = .ok (.reservedF 0xFFFFFFF) := by decide

/-- The word is rejected for a must-be-zero bit. -/
def illegal (w : Word) : Bool :=
  match decodeWord w with
  | .ok _ => false
  | .error r => r == .mustBeZero

/-- The words that V-P7, V-B15, V-T13, V-R11, V-S6 and sections 6.4 and 6.5 call illegal. -/
theorem test_decode_illegal : ([0xA2000000, 0xB0000001, 0xA0010000, 0x14000000, 0x11000100, 0x12000001, 0x20800159,
    0x30810001, 0x21800059, 0x60040000, 0x60001000, 0x60000010, 0x68000000, 0x70000100, 0x70010000, 0x78000000,
    0x50000001, 0x58000000, 0x80000001, 0x91000000] : List Word).all illegal = true := by decide +kernel

/-- The wire codes of the suggested table (R87), a data byte after a write code. -/
theorem test_decode_wire_write : decodeTableWord 8 0x80 = some (.cmdSecWr 0) ∧ decodeTableWord 8 0x82 = some (.cmdMinWr 0) ∧
    decodeTableWord 8 0x84 = some (.cmdHourWr 0) ∧ decodeTableWord 8 0x86 = some (.cmdDateWr 0) ∧
    decodeTableWord 8 0x88 = some (.cmdMonthWr 0) ∧ decodeTableWord 8 0x8A = some (.cmdDayWr 0) ∧
    decodeTableWord 8 0x8C = some (.cmdYearWr 0) ∧ decodeTableWord 8 0x8E = some (.cmdWpWr 0) ∧
    decodeTableWord 16 0x5980 = some (.cmdSecWr 0x59) := by decide

theorem test_decode_wire_read : decodeTableWord 8 0x81 = some .cmdSecRd ∧ decodeTableWord 8 0x83 = some .cmdMinRd ∧
    decodeTableWord 8 0x85 = some .cmdHourRd ∧ decodeTableWord 8 0x87 = some .cmdDateRd ∧
    decodeTableWord 8 0x89 = some .cmdMonthRd ∧ decodeTableWord 8 0x8B = some .cmdDayRd ∧
    decodeTableWord 8 0x8D = some .cmdYearRd ∧ decodeTableWord 8 0x8F = some .cmdWpRd ∧
    decodeTableWord 8 0x90 = none := by decide

theorem test_decode_table_word : decodeTableWord 32 0x80000000 = some .rsttimer ∧ decodeTableWord 32 0xA2000000 = none := by
  decide

/-! Well-formedness: an ill-formed operation for each check (the words section 6.4 refuses, and R85). -/

theorem test_wf_domain_refused : (Instr.encSec false false 8 0).wellFormed = false ∧
    (Instr.encSec false true 0 0).wellFormed = false ∧ (Instr.encMin true false 0 0).wellFormed = false ∧
    (Instr.encMin false false 8 0).wellFormed = false ∧ (Instr.encHour false false 4 0).wellFormed = false ∧
    (Instr.encHour false true 0 1).wellFormed = false ∧ (Instr.encHour true false 2 0).wellFormed = false ∧
    (Instr.encDate false false 4 0).wellFormed = false ∧ (Instr.encDate true false 0 0).wellFormed = false ∧
    (Instr.encMonth false false 2 0).wellFormed = false ∧ (Instr.encMonth false true 0 0).wellFormed = false ∧
    (Instr.encYear true false 0 0).wellFormed = false ∧ (Instr.encDay false false 1 0).wellFormed = false ∧
    (Instr.encWp true false 0 1).wellFormed = false ∧ (Instr.encWp true false 1 0).wellFormed = false ∧
    (Instr.encWp true true 0 0).wellFormed = false ∧ (Instr.wrreg .date false false 4 0).wellFormed = false := by decide

theorem test_wf_reserved_refused : (Instr.reserved0 0).wellFormed = false ∧ (Instr.reservedC 0).wellFormed = false ∧
    (Instr.reservedD 0).wellFormed = false ∧ (Instr.reservedE 0).wellFormed = false ∧
    (Instr.reservedF 0).wellFormed = false := by decide

theorem test_wf_accepts : (Instr.encSec true false 7 15).wellFormed = true ∧ (Instr.encHour true true 1 15).wellFormed = true ∧
    (Instr.encHour false false 3 15).wellFormed = true ∧ (Instr.encYear false false 15 15).wellFormed = true ∧
    (Instr.encWp true false 0 0).wellFormed = true ∧ (Instr.wrreg .day false false 0 15).wellFormed = true := by decide

/-! Pin operations (section 6.1). -/

/-- V-P1, V-I3. -/
theorem test_setrst_raises : gives (exec (.setrst true) (benchPins 1 [])) (fun t =>
    t.trace == [.rst true] && lines t false false false true && t.status.word == 2 && pinsWord t false == 0x30) = true := by
  decide

/-- V-P6. -/
theorem test_setrst_fails : gives (exec (.setrst true) (benchPins 0 [bad 0x0D])) (fun t =>
    t.trace == [.failed (.drive (.rst true))] && t.status.word == 0x00000D36) = true := by decide

/-- V-P4. -/
theorem test_setdir_out : gives (exec (.setdir .out) (benchPins 1 [])) (fun t =>
    t.trace == [.dir .out] && lines t false false true false && t.status.word == 2) = true := by decide

/-- V-P5, with DATA_OUT high. -/
theorem test_setdir_in : gives (exec (.setdir .inp) { benchOut 1 [] with dataOut := true }) (fun t =>
    t.trace == [.dir .inp] && lines t false true false false) = true := by decide

/-! Byte operations (sections 2 and 6.2). -/

/-- Section 2: the bits of 0b10110010, bit 0 first. -/
theorem test_txbyte_bits : gives (exec (.txbyte 0b10110010) (benchOut 24 [])) (fun t =>
    dats t.trace == [0, 1, 0, 0, 1, 1, 0, 1] && t.trace.length == 40 && lines t true true true false &&
    t.trace.take 5 == [.clk false, .dly, .dat false, .clk true, .dly] && t.status.word == 2) = true := by decide +kernel

/-- V-B10: the oracle fails event 12, the eighth pin action. -/
theorem test_txbyte_fails : gives (exec (.txbyte 0xB2) (benchOut 7 [bad 0x44])) (fun t =>
    t.status.word == 0x000C4446 && t.trace.length == 13 && !t.clk && t.trace.getLast? == some (.failed (.drive (.data false))))
    = true := by decide +kernel

/-- V-B5. -/
theorem test_txbyteH_order : gives (exec (.txbyteH 0x01) (benchOut 24 [])) (fun t =>
    t.trace.take 5 == [.clk false, .dly, .clk true, .dly, .dat true] && dats t.trace == [1, 0, 0, 0, 0, 0, 0, 0] &&
    t.clk && !t.dataOut) = true := by decide +kernel

/-- V-B14. -/
theorem test_txbyteH_refused : refuses (exec (.txbyteH 0x55) (benchPins 24 [])) .driveWhileInput = true ∧
    refuses (exec (.txbyte 0x55) (benchPins 24 [])) .driveWhileInput = true := by decide

/-- V-B6. -/
theorem test_rxbyte_receives : gives (exec .rxbyte (benchLevels 24 [] (levelsOf [0, 1, 0, 0, 0, 0, 1, 0]))) (fun t =>
    t.res == 0x42 && t.clk && t.trace.take 5 == [.clk false, .dly, .clk true, .dly, .smp false] && t.status.word == 2)
    = true := by decide +kernel

/-- V-B12: the sample of cycle 3 fails, the twelfth pin action. -/
theorem test_rxbyte_fails : gives (exec .rxbyte (benchLevels 11 [bad 0x06] (levelsOf [1, 0, 1]))) (fun t =>
    t.status.word == 0x00130646 && t.rxd == 0x05 && t.trace.length == 20) = true := by decide +kernel

/-- V-B8. -/
theorem test_rxbyteL_receives : gives (exec .rxbyteL (benchLevels 24 [] (levelsOf [1, 0, 0, 0, 0, 0, 0, 0]))) (fun t =>
    t.res == 0x01 && t.trace.take 5 == [.clk false, .dly, .smp true, .clk true, .dly]) = true := by decide +kernel

/-- V-B9: RXD does not carry over; V-B7: a sample while driving is DATA_OUT. -/
theorem test_rxbyte_lines : gives (exec .rxbyte { benchLevels 24 [] (List.replicate 8 false) with rxd := 0xFF })
      (fun t => t.res == 0x00) = true ∧
    gives (exec .rxbyteL { benchOut 24 [] with dataOut := true }) (fun t => t.res == 0xFF) = true := by decide +kernel

/-! Transactions (section 6.3). -/

/-- V-T1, V-I4. -/
theorem test_wrtxn_frame : gives (exec (.wrtxn 0x80 0x59) (benchPins 51 [])) (fun t =>
    dats t.trace == [0, 0, 0, 0, 0, 0, 0, 1, 1, 0, 0, 1, 1, 0, 1, 0] && t.trace.length == 83 && t.evIdx == 83 &&
    lines t true false true false && t.status.word == 2 && pinsWord t (pinsLevel t) == 0x25) = true := by decide +kernel

/-- V-T9: the first error wins. -/
theorem test_wrtxn_fails_twice : gives (exec (.wrtxn 0x80 0x59) (benchPins 27 [bad 0x03, bad 0x08])) (fun t =>
    t.status.word == 0x002C0346 && t.trace.length == 46 &&
    t.trace.drop 44 == [.failed (.drive (.data true)), .failed (.drive (.rst false))]) = true := by decide +kernel

/-- V-T4. -/
theorem test_rdtxn_frame : gives (exec (.rdtxn 0x81) (benchLevels 52 [] (levelsOf [1, 0, 0, 1, 1, 0, 1, 0]))) (fun t =>
    t.res == 0x59 && dats t.trace == [1, 0, 0, 0, 0, 0, 0, 1] && t.trace.length == 84 && t.trace[42]? == some (.dir .inp) &&
    t.trace[47]? == some (.smp true) && t.trace[52]? == some (.smp false) && lines t true true false false) = true := by
  decide +kernel

/-- V-T12: only the final lowering fails. -/
theorem test_rdtxn_lowering_fails :
    gives (exec (.rdtxn 0x81) (benchLevels 51 [bad 0x07] (levelsOf [1, 0, 0, 1, 1, 0, 1, 0]))) (fun t =>
      t.status.word == 0x00530746 && t.trace.length == 84 && t.rxd == 0x59) = true := by decide +kernel

/-! The codec (sections 6.4, 6.5): the byte in RES and the word RFLD. -/

theorem test_encSec : gives (exec (.encSec true false 5 9) bench) (fun t => t.res == 0xD9 && t.status.word == 2) = true ∧
    gives (exec (.encSec false false 0 10) bench) (fun t => t.res == 0x0A) = true := by decide

theorem test_encMin : gives (exec (.encMin false false 7 15) bench) (fun t => t.res == 0x7F) = true ∧
    refuses (exec (.encMin true false 0 0) bench) .outsideDomain = true := by decide

theorem test_encHour : gives (exec (.encHour true true 1 2) bench) (fun t => t.res == 0xB2) = true ∧
    gives (exec (.encHour false false 3 15) bench) (fun t => t.res == 0x3F) = true := by decide

theorem test_encDate : gives (exec (.encDate false false 2 9) bench) (fun t => t.res == 0x29) = true ∧
    refuses (exec (.encDate false false 4 0) bench) .outsideDomain = true := by decide

theorem test_encMonth : gives (exec (.encMonth false false 1 2) bench) (fun t => t.res == 0x12) = true ∧
    refuses (exec (.encMonth false false 2 0) bench) .outsideDomain = true := by decide

theorem test_encYear : gives (exec (.encYear false false 9 9) bench) (fun t => t.res == 0x99) = true ∧
    gives (exec (.encYear false false 15 15) bench) (fun t => t.res == 0xFF) = true := by decide

theorem test_encDay : gives (exec (.encDay false false 0 7) bench) (fun t => t.res == 0x07) = true ∧
    refuses (exec (.encDay false false 1 0) bench) .outsideDomain = true := by decide

theorem test_encWp : gives (exec (.encWp true false 0 0) bench) (fun t => t.res == 0x80) = true ∧
    refuses (exec (.encWp true false 0 1) bench) .outsideDomain = true := by decide

theorem test_decSec : gives (exec (.decSec 0xFF) bench) (fun t => fieldsWord t.rfld == 0x0002070F) = true ∧
    gives (exec (.decSec 0x59) bench) (fun t => fieldsWord t.rfld == 0x00000509) = true := by decide

theorem test_decMin : gives (exec (.decMin 0xB7) bench) (fun t => fieldsWord t.rfld == 0x00000307) = true := by decide

theorem test_decHour : gives (exec (.decHour 0xF2) bench) (fun t => fieldsWord t.rfld == 0x00030102) = true ∧
    gives (exec (.decHour 0x63) bench) (fun t => fieldsWord t.rfld == 0x00000203) = true := by decide

theorem test_decDate : gives (exec (.decDate 0xF1) bench) (fun t => fieldsWord t.rfld == 0x00000301) = true := by decide

theorem test_decMonth : gives (exec (.decMonth 0xF2) bench) (fun t => fieldsWord t.rfld == 0x00000102) = true := by decide

theorem test_decYear : gives (exec (.decYear 0xF9) bench) (fun t => fieldsWord t.rfld == 0x00000F09) = true := by decide

theorem test_decDay : gives (exec (.decDay 0xF3) bench) (fun t => fieldsWord t.rfld == 0x00000003) = true := by decide

theorem test_decWp : gives (exec (.decWp 0xFF) bench) (fun t => fieldsWord t.rfld == 0x00020000) = true ∧
    gives (exec (.decWp 0x7F) bench) (fun t => fieldsWord t.rfld == 0) = true := by decide

/-! Register operations (section 6.6). -/

/-- V-R3. -/
theorem test_wrreg_hour : gives (exec (.wrreg .hour true true 1 1) (benchPins 51 [])) (fun t =>
    dats t.trace == [0, 0, 1, 0, 0, 0, 0, 1, 1, 0, 0, 0, 1, 1, 0, 1] && t.cwr == 0x42030101 && !t.resSet) = true := by
  decide +kernel

/-- V-R10. -/
theorem test_wrreg_refused : refuses (exec (.wrreg .date false false 4 0) (benchPins 51 [])) .outsideDomain = true := by
  decide

/-- V-R7. -/
theorem test_rdreg_hour : gives (exec (.rdreg .hour) (benchLevels 52 [] (levelsOf [1, 0, 0, 0, 1, 1, 0, 1]))) (fun t =>
    t.res == 0xB1 && fieldsWord t.rfld == 0x00030101 && dats t.trace == [1, 0, 1, 0, 0, 0, 0, 1]) = true := by
  decide +kernel

/-- V-R8. -/
theorem test_rdreg_sec : gives (exec (.rdreg .sec) (benchLevels 52 [] (List.replicate 8 true))) (fun t =>
    t.res == 0xFF && fieldsWord t.rfld == 0x0002070F && valueOf .sec t.res == none) = true := by decide +kernel

/-! Wire codes: the `DAT` bits of the command byte (section 5 lists them). -/

theorem test_wire_write_codes : ([(.cmdWpWr 0, [0, 1, 1, 1, 0, 0, 0, 1]), (.cmdSecWr 0, [0, 0, 0, 0, 0, 0, 0, 1]),
    (.cmdMinWr 0, [0, 1, 0, 0, 0, 0, 0, 1]), (.cmdHourWr 0, [0, 0, 1, 0, 0, 0, 0, 1]),
    (.cmdDateWr 0, [0, 1, 1, 0, 0, 0, 0, 1]), (.cmdMonthWr 0, [0, 0, 0, 1, 0, 0, 0, 1]),
    (.cmdYearWr 0, [0, 0, 1, 1, 0, 0, 0, 1]), (.cmdDayWr 0, [0, 1, 0, 1, 0, 0, 0, 1])] : List (Instr × List Nat)).all
    (fun x => gives (exec x.1 (benchPins 51 [])) fun t => (dats t.trace).take 8 == x.2 && t.evIdx == 83) = true := by
  decide +kernel

theorem test_wire_read_codes : ([(.cmdWpRd, [1, 1, 1, 1, 0, 0, 0, 1]), (.cmdSecRd, [1, 0, 0, 0, 0, 0, 0, 1]),
    (.cmdMinRd, [1, 1, 0, 0, 0, 0, 0, 1]), (.cmdHourRd, [1, 0, 1, 0, 0, 0, 0, 1]),
    (.cmdDateRd, [1, 1, 1, 0, 0, 0, 0, 1]), (.cmdMonthRd, [1, 0, 0, 1, 0, 0, 0, 1]),
    (.cmdYearRd, [1, 0, 1, 1, 0, 0, 0, 1]), (.cmdDayRd, [1, 1, 0, 1, 0, 0, 0, 1])] : List (Instr × List Nat)).all
    (fun x => gives (exec x.1 (benchLevels 52 [] (bitsOf 0x59))) fun t => dats t.trace == x.2 && t.res == 0x59) = true := by
  decide +kernel

/-! Sequences (sections 5 and 6.7). -/

/-- V-S1. -/
theorem test_rsttimer : gives (exec .rsttimer (benchPeer 561 [] [])) (fun t =>
    t.status.word == 2 && t.evIdx == 913 && lines t true true true false &&
    t.peer.map (·.mem) == some [(0, 0x00), (1, 0x00), (2, 0x00), (3, 0x31), (4, 0x01), (5, 0x26), (6, 0x03), (7, 0x80),
      (8, 0xA5), (9, 0x5A)]) = true := by decide +kernel

/-- V-S3: event 362 fails, pin action 19 of transaction 5. -/
theorem test_rsttimer_fails : gives (exec .rsttimer (benchPeer (51 * 4 + 19) (bad 0x21 :: okPins 400 []) [])) (fun t =>
    t.status.word == 0x016A2146 && t.evIdx == 364 && !t.rst &&
    t.peer.map (·.mem) == some [(0, 0x00), (1, 0x00), (2, 0x00), (7, 0x00)]) = true := by decide +kernel

/-- V-S2. -/
theorem test_rdtimer : gives (exec .rdtimer (benchPeer 364 [] [(0, 0x00), (1, 0x00), (2, 0x00), (3, 0x31), (4, 0x01),
    (5, 0x26), (6, 0x03)])) (fun t => t.status.word == 2 && t.evIdx == 588 &&
    t.treg == ⟨0x00, 0x00, 0x00, 0x31, 0x01, 0x26, 0x03⟩ && !t.resSet && !t.rfldSet && t.clk && !t.dataOe) = true := by
  decide +kernel

/-- V-S4: event 215 fails, the first sample of transaction 3. -/
theorem test_rdtimer_fails : gives (exec .rdtimer (benchPeer (52 * 2 + 29) (bad 0x30 :: okPins 300 [])
    [(0, 0x00), (1, 0x00), (2, 0x00)])) (fun t => t.status.word == 0x00D73046 && t.evIdx == 217) = true := by
  decide +kernel

/-! The loopback (section 3), one step each. -/

theorem test_loopback_write : gives (exec (.wrtxn 0x80 0x42) (benchPeer 51 [] [])) (fun t =>
    t.peer.map (·.mem) == some [(0, 0x42)] && t.peer.map (·.pclk) == some true && t.peer.map (·.act) == some false) = true := by
  decide +kernel

theorem test_loopback_read : gives (exec (.rdtxn 0x81) (benchPeer 52 [] [(0, 0x42)])) (fun t =>
    t.res == 0x42 && t.peer.bind (·.out) == none) = true := by decide +kernel

/-! The host's functions (sections 5 and 6.8). -/

theorem test_format : format ⟨0x00, 0x00, 0x00, 0x31, 0x01, 0x26, 0x03⟩ = some "1996-01-31 00:00:00 3th".toList ∧
    format ⟨0x59, 0x59, 0x23, 0x31, 0x12, 0x99, 0x07⟩ = some "2069-12-31 23:59:59 7th".toList ∧
    format ⟨0x80, 0x05, 0x92, 0x09, 0x02, 0x30, 0x02⟩ = some "2000-02-09 12:05:00 2th".toList ∧
    format ⟨0x0A, 0x00, 0x00, 0x01, 0x01, 0x00, 0x01⟩ = none := by decide +kernel

theorem test_value : value 15 9 = some 159 ∧ yearFull 15 9 = some 2129 ∧ value 7 10 = none ∧ digits 99 = some (9, 9) ∧
    digits 100 = none := by decide

theorem test_wrregv : wrregv .sec 59 = some (.wrreg .sec false false 5 9) ∧ wrregv .sec 80 = none ∧
    wrregv .year 159 = some (.wrreg .year false false 15 9) ∧ wrregv .year 160 = none ∧
    levelOfByte 0x30 = false ∧ levelOfByte 0x31 = true ∧ wordOfDir .inp = "in" ∧ wordOfDir .out = "out" := by decide

/-! Issue, completion and reset (section 6.9). -/

/-- V-I1, V-I2: bit 3 is a draw. -/
theorem test_reset_words : State.reset.status.word = 0 ∧ pinsWord State.reset false = 0x20 ∧
    pinsWord State.reset true = 0x28 := by decide

/-- A host read from reset (V-I6 leaves the value open; the 0 is the model's choice, log 2). -/
theorem test_read_from_reset : gives (step { bench with host := [.read 0x08], bus := 7 }) (fun t => t.bus == 0) = true ∧
    gives (step { bench with host := [.read 0x0C], bus := 7 }) (fun t => t.bus == 0) = true ∧
    gives (step { bench with host := [.read 0x28], bus := 7 }) (fun t => t.bus == 0) = true := by decide

/-- R88: a control address handed over bare opens a write frame, here with the data byte 0xA5; 0x91 is no named code. -/
theorem test_control_code : gives (step { benchPins 51 [] with host := [.call (.wire 0x90 0xA5)] }) (fun t =>
      dats t.trace == [0, 0, 0, 0, 1, 0, 0, 1, 1, 0, 1, 0, 0, 1, 0, 1] && t.cwr == 0x209000A5) = true ∧
    refuses (step { bench with host := [.call (.wire 0x91 0)] }) .unlistedCode = true := by decide +kernel

/-- V-I5: the error fields are cleared at issue. -/
theorem test_issue_clears : gives (step { bench with
      host := [.write 0 0x67000000], status := Status.failed .ioError ⟨⟨0x0D, by decide⟩, 0⟩ })
    (fun t => t.status.word == 1) = true ∧
    gives (exec (.encWp false false 0 0) { bench with status := Status.failed .ioError ⟨⟨0x0D, by decide⟩, 0⟩ })
      (fun t => t.status.word == 2) = true := by decide

/-- R85, R196: a reserved word and operands outside the domain, written to CMD. -/
theorem test_write_refused : refuses (step { bench with host := [.write 0 0xC0000001] }) .reservedOpcode = true ∧
    refuses (step { bench with host := [.write 0 0x60000800] }) .outsideDomain = true := by decide

/-- V-I7. -/
theorem test_busy_refused : refuses (step { bench with host := [.write 0 0x67000000], status := Status.issued })
    .issueWhileBusy = true := by decide

/-- R34: an offset the block does not define; a write of a read-only register. -/
theorem test_host_offsets : faults (step { bench with host := [.read 0x30] }) = true ∧
    faults (step { bench with host := [.write 0x05 0] }) = true ∧
    gives (step { bench with host := [.write 0x2C 0xFF] }) (fun t => t.clk == false && t.trace == []) = true := by decide

/-- R271: a reset in the middle of an operation leaves no event and no completion. -/
theorem test_hard_reset : gives (step { bench with
      host := [.reset], clk := true, rst := true, status := Status.issued
      seq := .run (Running.first .rxbyte planRxbyte.frames) })
    (fun t => lines t false false false false && t.status.word == 0 && t.seq == .idle && t.trace == []) = true := by decide

/-- An opcode-table word placed for the next step runs first after reset (the form of the host's own question). -/
theorem test_first_step : gives (step (State.reset.withFetchWord 32 0x62030101)) (fun t => t.res == 0xB1) = true ∧
    refuses (step (State.reset.withFetchWord 32 0xF0000000)) .reservedOpcode = true := by decide

/-! Witnesses: a state and operands that meet the hypotheses of each statement together. -/

/-- A state in the middle of a hold, the sequencer running. -/
def holding : State := { bench with
  status := Status.issued, seq := .run { Running.first .rxbyte planRxbyte.frames with body := [.hold] } }

theorem test_witness_DecodeOfEncode : Instr.rdtimer.isCommand = true ∧
    (Instr.cmdWpRd.isCommand = false ∧ CmdTab.suggested.codes.Nodup) := by decide

theorem test_witness_EncodeOfDecode : decodeWord 0x42030101 = .ok (.wrreg .hour true true 1 1) := by decide

theorem test_witness_StepRunsInstruction :
    decode { bench with host := [.call (.cw 0x80000000)] }.cfg.tab (.cw 0x80000000) = .ok .rsttimer ∧
    decode { bench with host := [.call (.wire 0x81 0)] }.cfg.tab (.wire 0x81 0) = .ok .cmdSecRd ∧
    0x90 ∉ bench.cfg.tab.codes ∧ 0x90 = bench.cfg.ctlCharge ∧ 0x92 ∉ bench.cfg.tab.codes ∧ 0x92 = bench.cfg.ctlTrickle := by
  decide

theorem test_witness_IllegalWordRefused : decodeWord 0xA2000000 = .error .mustBeZero ∧
    { bench with host := [.call (.cw 0xA2000000)] }.host = .call (.cw 0xA2000000) :: [] ∧
    { bench with host := [.write 0 0xA2000000] }.host = .write 0 0xA2000000 :: [] := by decide

theorem test_witness_BusyRefuses : Instr.rsttimer.wellFormed = true ∧ holding.status.busy = true := by decide

theorem test_witness_AlwaysCompletes : (Instr.txbyte 1).wellFormed = true ∧ (benchOut 0 []).status.busy = false ∧
    (benchOut 0 []).dataOe = true ∧ Instr.rdtimer.wellFormed = true := by decide

theorem test_witness_PinOperationsComplete : (benchPins 1 []).status.busy = false ∧ (benchPins 1 []).pins = okPins 1 [] := by
  decide

theorem test_witness_TransmitCompletes : (benchOut 24 []).status.busy = false ∧ (benchOut 24 []).dataOe = true ∧
    (benchOut 24 []).pins = okPins 24 [] := by decide

theorem test_witness_ReceiveCompletes : (benchPins 24 []).status.busy = false ∧ (benchPins 24 []).pins = okPins 24 [] := by
  decide

theorem test_witness_ReceiveListedLevels : (benchLevels 24 [] (bitsOf 0x42)).status.busy = false ∧
    (benchLevels 24 [] (bitsOf 0x42)).pins = okPins 24 [] ∧ (benchLevels 24 [] (bitsOf 0x42)).dataOe = false ∧
    (benchLevels 24 [] (bitsOf 0x42)).peer = none ∧ (benchLevels 24 [] (bitsOf 0x42)).levels = bitsOf 0x42 ++ [] := by decide

theorem test_witness_ReceiveWhileDriving : (benchOut 24 []).status.busy = false ∧ (benchOut 24 []).pins = okPins 24 [] ∧
    (benchOut 24 []).dataOe = true ∧ { benchOut 24 [] with dataOut := true }.dataOe = true := by decide

theorem test_witness_WriteFrames : (benchPins 51 []).status.busy = false ∧ (benchPins 51 []).pins = okPins 51 [] := by decide

theorem test_witness_ReadFrames : (benchLevels 52 [] (bitsOf 0x59)).status.busy = false ∧
    (benchLevels 52 [] (bitsOf 0x59)).pins = okPins 52 [] ∧ (benchLevels 52 [] (bitsOf 0x59)).peer = none ∧
    (benchLevels 52 [] (bitsOf 0x59)).levels = bitsOf 0x59 ++ [] := by decide

theorem test_witness_WriteRegister : (benchPins 51 []).status.busy = false ∧ (benchPins 51 []).pins = okPins 51 [] ∧
    inDomain .sec true false 7 15 = true ∧ inDomain .hour true true 1 9 = true ∧ inDomain .wp true false 0 0 = true := by
  decide

theorem test_witness_ReservedRefused : Instr.reservedC 1 = .reservedC 1 ∧ bench.status.busy = false := by decide

theorem test_witness_Codec : bench.status.busy = false ∧ inDomain .sec true false 7 15 = true ∧
    inDomain .min false false 7 0 = true ∧ inDomain .hour false false 3 0 = true ∧ inDomain .hour true true 1 0 = true ∧
    inDomain .date false false 3 0 = true ∧ inDomain .month false false 1 0 = true ∧ inDomain .year false false 15 0 = true ∧
    inDomain .day false false 0 15 = true ∧ inDomain .wp true false 0 0 = true := by decide

theorem test_witness_OutsideDomain : bench.status.busy = false ∧ inDomain .sec false false 8 0 = false ∧
    inDomain .min false false 8 0 = false ∧ inDomain .hour false false 4 0 = false ∧ inDomain .hour true false 2 0 = false ∧
    inDomain .date false false 4 0 = false ∧ inDomain .month false false 2 0 = false ∧
    inDomain .year true false 0 0 = false ∧ inDomain .day false false 1 0 = false ∧ inDomain .wp false false 0 1 = false := by
  decide

theorem test_witness_ResetTimer : (benchPins 561 []).status.busy = false ∧ (benchPins 561 []).pins = okPins 561 [] :=
  ⟨rfl, rfl⟩

theorem test_witness_ReadTimer : (benchPins 364 []).status.busy = false ∧ (benchPins 364 []).pins = okPins 364 [] :=
  ⟨rfl, rfl⟩

/-- The levels of seven bytes. -/
def sevenLevels : List Bool :=
  bitsOf 1 ++ bitsOf 2 ++ bitsOf 3 ++ bitsOf 4 ++ bitsOf 5 ++ bitsOf 6 ++ bitsOf 7 ++ []

theorem test_witness_ReadTimerListedLevels : (benchLevels 364 [] sevenLevels).status.busy = false ∧
    (benchLevels 364 [] sevenLevels).pins = okPins 364 [] ∧ (benchLevels 364 [] sevenLevels).peer = none ∧
    (benchLevels 364 [] sevenLevels).levels = bitsOf 1 ++ bitsOf 2 ++ bitsOf 3 ++ bitsOf 4 ++ bitsOf 5 ++ bitsOf 6 ++
      bitsOf 7 ++ [] := ⟨rfl, rfl, rfl, rfl⟩

theorem test_witness_TransmitOnInputRefused : drivesBare (.txbyte 1) ∧ drivesBare (.txbyteH 1) ∧ bench.status.busy = false ∧
    bench.dataOe = false := ⟨⟨1, .inl rfl⟩, ⟨1, .inr rfl⟩, rfl, rfl⟩

theorem test_witness_PinOperationFails : (benchPins 0 [bad 1]).status.busy = false ∧
    (benchPins 0 [bad 1]).pins = .fail ⟨1, by decide⟩ true :: [] := ⟨rfl, rfl⟩

/-- The first and the last pin action of a run. -/
theorem test_witness_RunFails : ∀ n ∈ [0, 23], n < 24 ∧ (benchOut n [bad 1]).status.busy = false ∧
    (benchOut n [bad 1]).dataOe = true ∧ (benchOut n [bad 1]).pins = okPins n (.fail ⟨1, by decide⟩ true :: []) := by decide

theorem test_witness_ReceiveFails : ∀ n ∈ [0, 23], n < 24 ∧ (benchLevels n [bad 1] (bitsOf 5)).status.busy = false ∧
    (benchLevels n [bad 1] (bitsOf 5)).pins = okPins n (.fail ⟨1, by decide⟩ true :: []) ∧
    (benchLevels n [bad 1] (bitsOf 5)).dataOe = false ∧ (benchLevels n [bad 1] (bitsOf 5)).peer = none ∧
    (benchLevels n [bad 1] (bitsOf 5)).levels = bitsOf 5 ++ [] := by decide

/-- The first pin action and the last before the lowering, for both frames, with either answer to the lowering. -/
theorem test_witness_FrameFails : ∀ n ∈ [0, 49, 50], ∀ a ∈ [PinAnswer.ok, bad 2], (n < 50 ∨ n < 51) ∧
    (benchPins n [bad 1, a]).status.busy = false ∧
    (benchPins n [bad 1, a]).pins = okPins n (.fail ⟨1, by decide⟩ true :: a :: []) := by decide

/-- Each form of a write frame and of a read frame. -/
theorem test_witness_FrameForms : WritesFrame bench.cfg (.wrtxn 0x80 0x59) 0x80 0x59 ∧
    WritesFrame bench.cfg (.wrreg .sec false false 5 9) 0x80 0x59 ∧ WritesFrame bench.cfg (.cmdSecWr 0x59) 0x80 0x59 ∧
    ReadsFrame bench.cfg (.rdtxn 0x81) 0x81 ∧ ReadsFrame bench.cfg (.rdreg .sec) 0x81 ∧
    ReadsFrame bench.cfg .cmdSecRd 0x81 :=
  ⟨.inl rfl, .inr (.inl ⟨.sec, false, false, 5, 9, rfl, by decide, by decide, by decide⟩),
    .inr (.inr ⟨.sec, rfl, by decide⟩), .inl rfl, .inr (.inl ⟨.sec, rfl, by decide⟩), .inr (.inr ⟨.sec, rfl, by decide⟩)⟩

theorem test_witness_LoweringFails : ∀ n ∈ [50, 51], (benchPins n [bad 1]).status.busy = false ∧
    (benchPins n [bad 1]).pins = okPins n (.fail ⟨1, by decide⟩ true :: []) := by decide

/-- The first transaction and the last one, each at its first and at its last pin action before the lowering, with either answer
to it, and at the lowering alone. -/
theorem test_witness_ResetTimerFails : ∀ x ∈ [(0, 0), (0, 49), (10, 0), (10, 49)],
    ∀ a ∈ [PinAnswer.ok, bad 2], x.2 < 50 ∧ ((timerWrites bench.cfg)[x.1]?).isSome = true ∧
    (benchPins (51 * x.1 + x.2) [bad 1, a]).status.busy = false ∧
    (benchPins (51 * x.1 + x.2) [bad 1, a]).pins = okPins (51 * x.1 + x.2) (.fail ⟨1, by decide⟩ true :: a :: []) ∧
    (benchPins (51 * x.1 + 50) [bad 1]).pins = okPins (51 * x.1 + 50) (.fail ⟨1, by decide⟩ true :: []) := by
  decide +kernel

theorem test_witness_ReadTimerFails : ∀ x ∈ [(0, 0), (0, 50), (6, 0), (6, 50)],
    ∀ a ∈ [PinAnswer.ok, bad 2], x.1 < 7 ∧ x.2 < 51 ∧ (benchPins (52 * x.1 + x.2) [bad 1, a]).status.busy = false ∧
    (benchPins (52 * x.1 + x.2) [bad 1, a]).pins = okPins (52 * x.1 + x.2) (.fail ⟨1, by decide⟩ true :: a :: []) ∧
    (benchPins (52 * x.1 + 51) [bad 1]).pins = okPins (52 * x.1 + 51) (.fail ⟨1, by decide⟩ true :: []) := by
  decide +kernel

/-- Next states exist for the frames of pins, runs, frames, codec and sequences, whatever the environment answers. -/
theorem test_witness_Frames : (∃ t, exec (.setrst true) bench = .next t) ∧ (∃ t, exec (.setdir .out) bench = .next t) ∧
    (∃ t, exec (.txbyte 1) (benchOut 0 []) = .next t) ∧ (∃ t, exec (.txbyteH 1) (benchOut 0 []) = .next t) ∧
    (∃ t, exec .rxbyte bench = .next t) ∧ (∃ t, exec .rxbyteL bench = .next t) ∧
    (∃ t, exec (.wrtxn 1 2) bench = .next t) ∧ (∃ t, exec (.rdtxn 1) bench = .next t) ∧
    (∃ t, exec (.wrreg .sec false false 5 9) bench = .next t) ∧ (∃ t, exec (.rdreg .wp) bench = .next t) ∧
    (∃ t, exec (wrCode .sec 1) bench = .next t) ∧ (∃ t, exec (rdCode .wp) bench = .next t) ∧
    (∃ t, exec (encOf .min false false 5 9) bench = .next t) ∧ (∃ t, exec (decOf .day 3) bench = .next t) ∧
    (∃ t, exec .rsttimer bench = .next t) ∧ (∃ t, exec .rdtimer bench = .next t) :=
  ⟨⟨_, rfl⟩, ⟨_, rfl⟩, ⟨_, rfl⟩, ⟨_, rfl⟩, ⟨_, rfl⟩, ⟨_, rfl⟩, ⟨_, rfl⟩, ⟨_, rfl⟩, ⟨_, rfl⟩, ⟨_, rfl⟩, ⟨_, rfl⟩,
    ⟨_, rfl⟩, ⟨_, rfl⟩, ⟨_, rfl⟩, ⟨_, rfl⟩, ⟨_, rfl⟩⟩

/-- A peer with the seconds slot open for writing: every other slot address meets the hypothesis. -/
theorem test_witness_RunMemoryFrame : (∃ t, exec (.txbyte 1)
      { benchOut 24 [] with peer := some { Peer.fresh with sel := .wr (.reg .sec) } } = .next t) ∧
    ∀ sl, ({ Peer.fresh with sel := .wr (.reg .sec) } : Peer).sel = .wr sl → 7 ≠ sl.addr :=
  ⟨⟨_, rfl⟩, by intro sl h; injection h with h; subst h; decide⟩

theorem test_witness_FrameMemoryFrame : (∃ t, exec (.wrtxn 0x80 1) (benchPeer 51 [] []) = .next t) ∧
    ∀ sl, lookup board 0x80 = .wr sl → 7 ≠ sl.addr :=
  ⟨⟨_, rfl⟩, by
    have e : lookup board 0x80 = .wr (.reg .sec) := by decide
    intro sl h
    rw [e] at h
    injection h with h
    subst h
    decide⟩

/-- Address 10 is no slot; for RDTIMER no command byte of the suggested table selects for writing. -/
theorem test_witness_TimerMemoryFrame : (∃ t, exec .rsttimer (benchPeer 561 [] []) = .next t) ∧
    (∃ t, exec .rdtimer (benchPeer 364 [] []) = .next t) ∧ ∀ sl : Slot, 10 ≠ sl.addr :=
  ⟨⟨_, rfl⟩, ⟨_, rfl⟩, by
    intro sl
    cases sl with
    | reg k => cases k <;> decide
    | charge => decide
    | trickle => decide⟩

theorem test_witness_LinesNeedEvents : (∃ t, step bench = .next t ∧ t.trace = bench.trace) ∧
    ∃ t, step { bench with host := [.call (.cw 0x67020000)] } = .next t ∧ t.trace = bench.trace :=
  ⟨⟨_, rfl, rfl⟩, ⟨_, rfl, rfl⟩⟩

theorem test_witness_IdleHolds : bench.seq = .idle ∧ (∃ t, step bench = .next t) ∧
    (∃ t, step { bench with host := [.read 0x2C] } = .next t) ∧
    ∃ t, step { bench with host := [.write 0x04 1] } = .next t := ⟨rfl, ⟨_, rfl⟩, ⟨_, rfl⟩, ⟨_, rfl⟩⟩

theorem test_witness_StepKeepsInv : bench.Inv ∧ (∃ t, step { bench with host := [.call (.cw 0x80000000)] } = .next t) ∧
    holding.Inv ∧ ∃ t, step holding = .next t := by
  refine ⟨?_, ⟨_, rfl⟩, ?_, ⟨_, rfl⟩⟩
  · exact ⟨rfl, by simp [bench, State.reset, Status.zero, State.Idle], by decide, ⟨by decide, by decide⟩,
      ⟨by decide, fun h => absurd rfl h⟩, by intro p h; cases h⟩
  · exact ⟨rfl, by simp [holding, Status.issued, State.Idle], by decide, ⟨by decide, by decide⟩,
      ⟨by decide, fun h => absurd rfl h⟩, by intro p h; cases h⟩

theorem test_witness_HardwareReset : { holding with host := [.reset] }.host = .reset :: [] := by decide

theorem test_witness_HostArithmetic : 99 ≤ 99 ∧ 100 > 99 ∧ 9 ≤ 9 ∧ 10 > 9 ∧ 15 ≤ 15 := by decide

theorem test_witness_Loopback : board.Distinct ∧ (benchPeer 103 [] []).status.busy = false ∧
    (benchPeer 103 [] []).peer = some Peer.fresh ∧ (benchPeer 103 [] []).pins = okPins 103 [] :=
  ⟨by decide, rfl, rfl, rfl⟩

theorem test_witness_ResetThenRead : board.Distinct ∧ (benchPeer 925 [] []).status.busy = false ∧
    (benchPeer 925 [] []).peer = some Peer.fresh ∧ (benchPeer 925 [] []).pins = okPins 925 [] :=
  ⟨by decide, rfl, rfl, rfl⟩

theorem test_witness_HostReads : (benchOut 0 []).dataOe = true := by decide

/-- A word for the write of CMD: a transmit run with DATA_OE = 1, and a sequence. -/
theorem test_witness_HostWrites_CMD : decodeWord 0x110000B2 = .ok (.txbyte 0xB2) ∧ (Instr.txbyte 0xB2).wellFormed = true ∧
    (benchOut 0 []).status.busy = false ∧ (benchOut 0 []).dataOe = true ∧ decodeWord 0x80000000 = .ok .rsttimer ∧
    Instr.rsttimer.wellFormed = true := by decide

theorem test_witness_HostWrites : 0x04 ∈ [0x04, 0x08, 0x0C, 0x10, 0x14, 0x18, 0x1C, 0x20, 0x24, 0x28, 0x2C] ∧
    0x2C ∈ [0x04, 0x08, 0x0C, 0x10, 0x14, 0x18, 0x1C, 0x20, 0x24, 0x28, 0x2C] ∧
    (∀ off ∈ [0x01, 0x2B, 0x2D, 0x30], off ∉ [0x00, 0x04, 0x08, 0x0C, 0x10, 0x14, 0x18, 0x1C, 0x20, 0x24, 0x28, 0x2C]) := by
  decide

theorem test_witness_TurnsReachExec : bench.Ready ∧ (∃ t, exec .rdtimer bench = .next t) ∧
    (∃ t, exec (.encSec false false 5 9) bench = .next t) := ⟨⟨rfl, rfl, rfl⟩, ⟨_, rfl⟩, ⟨_, rfl⟩⟩

/-- T_HOLD is 3 here; the first and the last count of the hold meet the bounds. -/
theorem test_witness_HoldCounts : (∃ r ms, holding.seq = .run r ∧ r.body = .hold :: ms) ∧ holding.dly = 0 ∧
    0 < 1 ∧ 1 ≤ holding.cfg.tHold ∧ 3 ≤ holding.cfg.tHold := ⟨⟨_, _, rfl, rfl⟩, rfl, by decide, by decide, by decide⟩

/-- A run of the sequencer at the start of cycle 5, transmitting in the low phase and receiving in the high phase. -/
def cycling (pol : Bool) (act : BitVec 3 → Micro) : State := { benchOut 3 [] with
  status := Status.issued
  seq := .run { Running.first .rxbyte planRxbyte.frames with body := cycle pol act 5 ++ [.rst false] } }

theorem test_witness_HoldCounts_cycle : (∃ r, (cycling true .txBit).seq = .run r ∧ r.body = cycle true .txBit 5 ++ [.rst false]) ∧
    (cycling true .txBit).dly = 0 ∧ (cycling true .txBit).pins = okPins 3 [] ∧ (cycling true .txBit).dataOe = true ∧
    (∃ r, (cycling false .rxBit).seq = .run r ∧ r.body = cycle false .rxBit 5 ++ [.rst false]) ∧
    0 < 1 ∧ 1 ≤ 2 * board.tHold + 5 ∧ 11 ≤ 2 * board.tHold + 5 :=
  ⟨⟨_, rfl, rfl⟩, rfl, rfl, rfl, ⟨_, rfl, rfl⟩, by decide, by decide, by decide⟩

/-- R28, R140 with T_HOLD = 3: the last turn of the low phase and the first of the high phase. -/
theorem test_cycle_position : gives (turns 6 (cycling true .txBit)) (fun t => t.t == 5 && !t.ph && !t.clk) = true ∧
    gives (turns 7 (cycling true .txBit)) (fun t => t.t == 5 && t.ph && t.clk) = true ∧
    gives (turns 6 (cycling false .rxBit)) (fun t => t.t == 5 && t.ph && t.clk) = true := by decide +kernel

/-- R33, R126 with T_HOLD = 3: three counts, then the event. -/
theorem test_hold_counts : gives (turns 3 holding) (fun t => t.trace == [] && t.dly == 1) = true ∧
    gives (turns 4 holding) (fun t => t.trace == [.dly] && t.dly == 0) = true := by decide

end Sys2Proof.Tests
end

/-! PROOFS. The family of spec/00_scope.md: what a step runs (R132), and that an operation completes (R8, R283). -/

namespace Sys2Proof.Machine

/-! An operation as its plan. -/

/-- An operation inside its domain runs the plan that the sequencer also has for it, so the facts about `perform` are
facts about `exec`. -/
theorem exec_eq_perform {i : Instr} (h : i.wellFormed = true) (s : State) :
    exec i s = perform i (planOf s.cfg i) s := by
  cases i with
  | reserved0 | reservedC | reservedD | reservedE | reservedF => nomatch h
  | _ => rfl

/-- The error of a plan has the kind R241 and R242 give. -/
@[simp] theorem planOf_kind (cfg : Config) (i : Instr) : (planOf cfg i).kind = errorKind i := by
  cases i <;> rfl

theorem domainGuard_of_inDomain {k : Kind} {f1 f0 : Bool} {tens ones : BitVec 4}
    (h : inDomain k f1 f0 tens ones = true) : domainGuard k f1 f0 tens ones = .always := by
  simp [domainGuard, h]

/-- Inside the domain of R196 only a transmit run on its own is guarded (R128). -/
theorem planOf_guard {i : Instr} (h : i.wellFormed = true) (cfg : Config) :
    (planOf cfg i).guard = .always ∨ (planOf cfg i).guard = .driving ∧ drivesBare i := by
  cases i with
  | txbyte src => exact .inr ⟨rfl, src, .inl rfl⟩
  | txbyteH src => exact .inr ⟨rfl, src, .inr rfl⟩
  | wrreg | encSec | encMin | encHour | encDate | encMonth | encYear | encDay | encWp =>
    exact .inl (domainGuard_of_inDomain h)
  | reserved0 | reservedC | reservedD | reservedE | reservedF => nomatch h
  | _ => exact .inl rfl

/-- While BUSY is 0, an operation inside its domain is not stopped. -/
theorem planOf_stop {i : Instr} {s : State} (h : i.wellFormed = true) (hb : s.status.busy = false)
    (hd : drivesBare i → s.dataOe = true) : (planOf s.cfg i).stop s = none := by
  obtain hg | ⟨hg, bare⟩ := planOf_guard h s.cfg
  · simp [Plan.stop, hb, hg]
  · simp [Plan.stop, hb, hg, hd bare]

/-! Completion. -/

@[simp] theorem complete_seq (p : Plan) (x : State × Except Failure (List Byte)) : (complete p x).seq = .idle := by
  obtain ⟨s, f | got⟩ := x <;> rfl

/-- A completion is Ok, or Err with the plan's kind and the code and event index of some failure (R133). -/
theorem complete_status (p : Plan) (x : State × Except Failure (List Byte)) :
    (complete p x).status = Status.completed ∨ ∃ f, (complete p x).status = Status.failed p.kind f := by
  obtain ⟨s, f | got⟩ := x
  · exact .inr ⟨f, rfl⟩
  · exact .inl rfl

/-- Settles O8: no guard stops the operation, its plan runs to a completion, and the code of a failure is never 0. -/
theorem alwaysCompletes : Obligations.AlwaysCompletes := by
  intro i s hw hb hd
  have run := (exec_eq_perform hw s).trans (perform_next.2 ⟨planOf_stop hw hb hd, rfl⟩)
  refine ⟨_, run, complete_seq _ _, ?_⟩
  obtain ok | ⟨f, err⟩ := complete_status (planOf s.cfg i)
    (runFrames (planOf s.cfg i).frames [] (issueOp (commandWord s.cfg.tab i) s))
  · rw [ok]
    exact ⟨rfl, rfl, .inl ⟨rfl, rfl, rfl, rfl⟩⟩
  · rw [err, planOf_kind]
    exact ⟨rfl, rfl, .inr ⟨rfl, f.cause.nonzero, rfl⟩⟩

/-! A step that calls. -/

/-- A code that the host calls runs as the operation it stands for. -/
theorem step_of_decodeCall {s : State} {c : Code} {rest : List HostAct} {i : Instr} (hh : s.host = .call c :: rest)
    (hd : decodeCall s.cfg c = .ok i) : step s = exec i { s with host := rest } := by
  simp [step, machineStep, hh, hostTurn, call, hd]

/-- Settles O5: both codes are called as the operation they stand for. -/
theorem stepRunsInstruction : Obligations.StepRunsInstruction := by
  intro s c rest hh
  constructor
  · intro i hi
    exact step_of_decodeCall hh (decodeCall_of_decode hi)
  · rintro cmd dat rfl hcmd hctl
    exact step_of_decodeCall hh (decodeCall_control dat hcmd hctl)

end Sys2Proof.Machine

/-! PROOFS. The family of spec/10_state.md: what an operation leaves alone (R22 to R32), what a step of the machine can do and
the invariant it keeps (R33, R39), the host's registers (R34, R35, R38), the sequencer turn by turn (R28, R33). -/

namespace Sys2Proof.Machine

/-! What the steps of an operation write. -/

/-- What an operation can write besides the command word, STATUS, the trace and the oracle: a line or a register of the
block, the listed levels of the environment, the peer's memory. -/
inductive Reg where
  | clk | dataOut | dataOe | rst | txd | rxd
  /-- RES, and that an operation wrote it. -/
  | res
  /-- RFLD, and that an operation wrote it. -/
  | rfld
  /-- TREG, and that an operation wrote it. -/
  | treg
  /-- T and PH together. -/
  | position
  | dly | levels | memory

/-- A register holds the same in two states. -/
def Reg.Same (q : Reg) (s t : State) : Prop :=
  match q with
  | .clk => t.clk = s.clk
  | .dataOut => t.dataOut = s.dataOut
  | .dataOe => t.dataOe = s.dataOe
  | .rst => t.rst = s.rst
  | .txd => t.txd = s.txd
  | .rxd => t.rxd = s.rxd
  | .res => t.res = s.res ∧ t.resSet = s.resSet
  | .rfld => t.rfld = s.rfld ∧ t.rfldSet = s.rfldSet
  | .treg => t.treg = s.treg ∧ t.tregSet = s.tregSet
  | .position => t.t = s.t ∧ t.ph = s.ph
  | .dly => t.dly = s.dly
  | .levels => t.levels = s.levels
  | .memory => ∀ a, peerByte t a = peerByte s a

/-- The registers a drive writes; the peer's memory takes a bit at a clock edge alone (R65). -/
def Drive.writes : Drive → Reg → Bool
  | .clk _, .clk => true
  | .clk _, .memory => true
  | .data _, .dataOut => true
  | .rst _, .rst => true
  | .dir _, .dataOe => true
  | _, _ => false

/-- The registers a step of an operation's list writes. -/
def Micro.writes : Micro → Reg → Bool
  | .loadTxd _, .txd => true
  | .clearRxd, .rxd => true
  | .clk _ _, .clk => true
  | .clk _ _, .position => true
  | .clk _ _, .memory => true
  | .hold, .dly => true
  | .txBit _, .dataOut => true
  | .rxBit _, .rxd => true
  | .rxBit _, .levels => true
  | .rst _, .rst => true
  | .dir _, .dataOe => true
  | _, _ => false

theorem Reg.Same.refl (q : Reg) (s : State) : q.Same s s := by
  cases q <;> simp [Reg.Same]

theorem Reg.Same.trans {q : Reg} {s t u : State} (a : q.Same s t) (b : q.Same t u) : q.Same s u := by
  cases q with
  | res | rfld | treg | position => exact ⟨Eq.trans b.1 a.1, Eq.trans b.2 a.2⟩
  | memory => exact fun x => (b x).trans (a x)
  | _ => exact Eq.trans b a

/-- An oracle's answer writes the list of answers or the draw counter. -/
theorem ask_state (s : State) : ∃ ps n, (ask s).2 = { s with pins := ps, draws := n } := by
  unfold ask
  split <;> exact ⟨_, _, rfl⟩

theorem Reg.Same.ask (q : Reg) (s : State) : q.Same s (ask s).2 := by
  obtain ⟨ps, n, e⟩ := ask_state s
  rw [e]
  cases q <;> simp [Reg.Same, peerByte]

/-- Row by row of `Drive.writes`. -/
theorem Reg.Same.apply {d : Drive} {q : Reg} (h : d.writes q = false) (s : State) : q.Same s (d.apply s) := by
  cases q <;> cases d <;> simp_all [Reg.Same, Drive.writes, peerByte]

/-- PEER-ECHO stores at a clock edge alone (R65). -/
theorem Peer.react_mem {e : Event} (h : ∀ v, e ≠ .clk v) (cfg : Config) (d : Bool) (p : Peer) :
    (p.react cfg e d).mem = p.mem := by
  cases e with
  | clk v => exact absurd rfl (h v)
  | rst v => cases v <;> rfl
  | _ => rfl

theorem peerByte_emit {e : Event} (h : ∀ v, e ≠ .clk v) (s : State) (a : Nat) :
    peerByte (s.emit e) a = peerByte s a := by
  cases hp : s.peer <;> simp [peerByte, hp, Peer.react_mem h]

theorem Reg.Same.emit {q : Reg} {e : Event} (h : q = .memory → ∀ v, e ≠ .clk v) (s : State) :
    q.Same s (s.emit e) := by
  cases q with
  | memory => exact peerByte_emit (h rfl) s
  | res | rfld | treg | position => exact ⟨rfl, rfl⟩
  | _ => exact rfl

theorem Reg.Same.drive {d : Drive} {q : Reg} (h : d.writes q = false) (s : State) : q.Same s (drive d s).1 := by
  have asked := Reg.Same.ask q s
  have edge : q = .memory → ∀ v, d.event ≠ .clk v := by
    rintro rfl v
    cases d <;> simp_all [Drive.writes, Drive.event]
  unfold Machine.drive
  split
  · next e =>
    rw [e] at asked
    exact (asked.trans (.apply h _)).trans (.emit edge _)
  · next took _ e =>
    rw [e] at asked
    have bang : q = .memory → ∀ v, Event.failed (.drive d) ≠ .clk v := fun _ _ => by simp
    cases took
    · exact asked.trans (.emit bang _)
    · exact (asked.trans (.apply h _)).trans (.emit bang _)

/-- A sample takes its level from the listed levels, if from anything, and its event is no clock edge. -/
theorem Reg.Same.sample {q : Reg} (h : q ≠ .levels) (s : State) : q.Same s (pinSampleData s).1 := by
  have asked := Reg.Same.ask q s
  unfold pinSampleData
  split
  · next u e =>
    rw [e] at asked
    obtain ⟨v, lv, dr, e'⟩ := dataIn_spec u
    have taken : q.Same u (dataIn u).2 := by
      rw [e']
      cases q <;> simp_all [Reg.Same, peerByte]
    exact (asked.trans taken).trans (.emit (fun _ _ => by simp) _)
  · next e =>
    rw [e] at asked
    exact asked.trans (.emit (fun _ _ => by simp) _)

/-- A step leaves alone every register that its row of `Micro.writes` does not name. -/
theorem Reg.Same.micro {m : Micro} {q : Reg} (h : m.writes q = false) (s : State) : q.Same s (m.run s).1 := by
  cases m with
  | loadTxd b => cases q <;> simp_all [Reg.Same, Micro.writes, Micro.run, peerByte]
  | clearRxd => cases q <;> simp_all [Reg.Same, Micro.writes, Micro.run, peerByte]
  | clk v t =>
    have line : (Drive.clk v).writes q = false := by cases q <;> simp_all [Micro.writes, Drive.writes]
    have move : ∀ (u : State) (t : BitVec 3) (ph : Bool), q.Same u { u with t := t, ph := ph } := by
      intro u t ph
      cases q <;> simp_all [Reg.Same, Micro.writes]
    have driven := (move s t s.ph).trans (.drive line { s with t := t })
    simp only [Micro.run, pinDriveClk]
    split
    · next u e =>
      rw [e] at driven
      exact driven.trans (move u u.t v)
    · next e =>
      rw [e] at driven
      exact driven
  | hold =>
    have reset : q.Same s { s with dly := 0 } := by cases q <;> simp_all [Reg.Same, Micro.writes, peerByte]
    exact reset.trans (.emit (fun _ _ => by simp) _)
  | txBit t => exact .drive (by cases q <;> simp_all [Micro.writes, Drive.writes]) s
  | rxBit t =>
    have sampled := Reg.Same.sample (q := q) (by rintro rfl; simp [Micro.writes] at h) s
    simp only [Micro.run]
    split
    · next e =>
      rw [e] at sampled
      exact sampled.trans (by cases q <;> simp_all [Reg.Same, Micro.writes, peerByte])
    · next e =>
      rw [e] at sampled
      exact sampled
  | rst v => exact .drive (by cases q <;> simp_all [Micro.writes, Drive.writes]) s
  | dir d => exact .drive (by cases q <;> simp_all [Micro.writes, Drive.writes]) s

/-! From the steps to the operation. -/

/-- All steps of a frame, its final lowering of reset among them. -/
def Frame.steps (f : Frame) : List Micro := f.body ++ if f.closes then [.rst false] else []

section Preserves
variable {P : State → Prop}

theorem runBody_preserves {ms : List Micro} (h : ∀ m ∈ ms, ∀ s, P s → P (m.run s).1) (s : State) (hs : P s) :
    P (runBody ms s).1 := by
  induction ms generalizing s with
  | nil => exact hs
  | cons m ms ih =>
    have first := h m (.head _) s hs
    simp only [runBody]
    split
    · next e =>
      rw [e] at first
      exact ih (fun n hn => h n (.tail _ hn)) _ first
    · next e =>
      rw [e] at first
      exact first

/-- The lowering leaves the state of the step RST(0). -/
theorem lower_state (e : Option Failure) (s : State) : (lower e s).1 = (Micro.run (.rst false) s).1 := by
  simp only [lower, Micro.run]
  split <;> next d => rw [d]

theorem Frame.run_preserves {f : Frame} (h : ∀ m ∈ f.steps, ∀ s, P s → P (m.run s).1) (s : State) (hs : P s) :
    P (f.run s).1 := by
  have body := runBody_preserves (fun m hm => h m (List.mem_append_left _ hm)) s hs
  unfold Frame.run
  split
  · next c =>
    rw [lower_state]
    exact h _ (by simp [Frame.steps, c]) _ body
  · exact body

/-- What every step of every frame keeps, the frames keep. -/
theorem runFrames_preserves {fs : List Frame} (h : ∀ f ∈ fs, ∀ m ∈ f.steps, ∀ s, P s → P (m.run s).1)
    (got : List Byte) (s : State) (hs : P s) : P (runFrames fs got s).1 := by
  induction fs generalizing got s with
  | nil => exact hs
  | cons f fs ih =>
    have first := Frame.run_preserves (h f (.head _)) s hs
    simp only [runFrames]
    split
    · next e =>
      rw [e] at first
      exact ih (fun g hg => h g (.tail _ hg)) _ _ first
    · next e =>
      rw [e] at first
      exact first

end Preserves

/-- Steps none of which writes a register leave it as it was. -/
theorem Reg.Same.body {q : Reg} {ms : List Micro} (h : ms.any (fun m => m.writes q) = false) (s : State) :
    q.Same s (runBody ms s).1 := by
  refine runBody_preserves (P := q.Same s) (fun m hm u hu => hu.trans (.micro ?_ u)) s (.refl q s)
  simpa using List.any_eq_false.1 h m hm

/-- Whether some step of the frame writes the register. -/
def Frame.writes (f : Frame) (q : Reg) : Bool := f.steps.any fun m => m.writes q

/-- Frames none of which writes a register leave it as it was. -/
theorem Reg.Same.frames {q : Reg} {fs : List Frame} (h : ∀ f ∈ fs, f.writes q = false) (got : List Byte)
    (s : State) : q.Same s (runFrames fs got s).1 := by
  refine runFrames_preserves (P := q.Same s) (fun f hf m hm u hu => hu.trans (.micro ?_ u)) got s (.refl q s)
  simpa using List.any_eq_false.1 (h f hf) m hm

/-! Completion. -/

/-- The result registers that a completion writes (R133). -/
def Result.writes : Result → Reg → Bool
  | .res, .res => true
  | .resFields _, .res => true
  | .resFields _, .rfld => true
  | .encoded _, .res => true
  | .decoded _, .rfld => true
  | .timeRegs, .treg => true
  | _, _ => false

/-- Row by row of `Result.writes`. -/
theorem Reg.Same.deliver {r : Result} {q : Reg} (h : r.writes q = false) (got : List Byte) (s : State) :
    q.Same s (deliver r got s) := by
  cases r <;> cases q <;> simp_all [Reg.Same, Result.writes, Machine.deliver, peerByte]

/-- What a failure spoils is what a success would have written. -/
theorem Reg.Same.spoil {r : Result} {q : Reg} (h : r.writes q = false) (s : State) : q.Same s (spoil r s) := by
  cases r <;> cases q <;> simp_all [Reg.Same, Result.writes, Machine.spoil, peerByte]

theorem Reg.Same.complete {p : Plan} {q : Reg} (h : p.result.writes q = false)
    (x : State × Except Failure (List Byte)) : q.Same x.1 (complete p x) := by
  have idle : ∀ (u : State) (y : Status), q.Same u { u with status := y, seq := .idle } := by
    intro u y
    cases q <;> simp [Reg.Same, peerByte]
  obtain ⟨s, f | got⟩ := x
  · exact (Reg.Same.spoil h s).trans (idle _ _)
  · exact (Reg.Same.deliver h got s).trans (idle _ _)

/-- A completion changes none of the lines, the command word, the configuration, the host's side and the trace. -/
theorem complete_frame (p : Plan) (x : State × Except Failure (List Byte)) :
    (complete p x).pwr = x.1.pwr ∧ (complete p x).cwr = x.1.cwr ∧ (complete p x).cfg = x.1.cfg ∧
    (complete p x).host = x.1.host ∧ (complete p x).bus = x.1.bus ∧ (complete p x).trace = x.1.trace ∧
    (complete p x).evIdx = x.1.evIdx ∧ (complete p x).peer = x.1.peer := by
  obtain ⟨s, f | got⟩ := x <;> simp [complete]

/-! What a whole operation leaves alone. -/

/-- The state and the outcome an operation's frames end with, before its completion. -/
def framesRun (i : Instr) (s : State) : State × Except Failure (List Byte) :=
  runFrames (planOf s.cfg i).frames [] (issueOp (commandWord s.cfg.tab i) s)

theorem framesRun_keeps (i : Instr) (s : State) : Keeps (issueOp (commandWord s.cfg.tab i) s) (framesRun i s).1 :=
  .frames _ _ _

/-- Whether an operation writes a register, in a step of a frame or at its completion. -/
def Plan.writes (p : Plan) (q : Reg) : Bool := p.frames.any (fun f => f.writes q) || p.result.writes q

section Exec
variable {i : Instr} {s t : State}

/-- An operation that gives a next state was not stopped, and the state is the completion of its plan. -/
theorem exec_next (h : exec i s = .next t) :
    (planOf s.cfg i).stop s = none ∧ t = complete (planOf s.cfg i) (framesRun i s) := by
  cases i with
  | reserved0 | reservedC | reservedD | reservedE | reservedF => nomatch h
  | _ => exact perform_next.1 h

/-- An operation leaves every register alone that its plan does not write, however the environment answers. -/
theorem exec_same (h : exec i s = .next t) (q : Reg) (hq : (planOf s.cfg i).writes q = false) : q.Same s t := by
  obtain ⟨-, rfl⟩ := exec_next h
  obtain ⟨frames, result⟩ := Bool.or_eq_false_iff.1 hq
  have issued : q.Same s (issueOp (commandWord s.cfg.tab i) s) := by cases q <;> simp [Reg.Same, peerByte]
  have ran := Reg.Same.frames (fun f hf => by simpa using List.any_eq_false.1 frames f hf) []
    (issueOp (commandWord s.cfg.tab i) s)
  exact (issued.trans ran).trans (.complete result _)

end Exec

/-! The frame obligations. -/

/-- Settles O36: the frames keep these fields, and issue and completion write only CWR and the count among them. -/
theorem operationFrame : Obligations.OperationFrame := by
  intro i s t h
  obtain ⟨-, rfl⟩ := exec_next h
  obtain ⟨pwr, cwr, cfg, host, bus, trace, evIdx, -⟩ := complete_frame (planOf s.cfg i) (framesRun i s)
  have keeps := framesRun_keeps i s
  obtain ⟨es, grows, counted⟩ := keeps.trace
  exact ⟨pwr.trans keeps.pwr, cfg.trans keeps.cfg, host.trans keeps.host, bus.trans keeps.bus, cwr.trans keeps.cwr,
    es, trace.trans grows, by simpa [evIdx] using counted⟩

/-- Settles O37: SETRST is the one step RST, SETDIR the one step DIR. -/
theorem pinFrame : Obligations.PinFrame := by
  intro v d s t
  have same : exec (.setrst v) s = .next t ∨ exec (.setdir d) s = .next t → ∀ q : Reg,
      (planSetrst v).writes q = false → (planSetdir d).writes q = false → q.Same s t := by
    rintro (h | h) q hv hd
    · exact exec_same h q hv
    · exact exec_same h q hd
  refine ⟨fun h => ⟨exec_same h .clk rfl, exec_same h .dataOut rfl, exec_same h .dataOe rfl⟩,
    fun h => ⟨exec_same h .clk rfl, exec_same h .dataOut rfl, exec_same h .rst rfl⟩, fun h => ?_⟩
  obtain ⟨res, resSet⟩ := same h .res rfl rfl
  obtain ⟨rfld, rfldSet⟩ := same h .rfld rfl rfl
  obtain ⟨treg, tregSet⟩ := same h .treg rfl rfl
  obtain ⟨t, ph⟩ := same h .position rfl rfl
  exact ⟨same h .txd rfl rfl, same h .rxd rfl rfl, res, rfld, treg, resSet, rfldSet, tregSet, t, ph,
    same h .dly rfl rfl, same h .levels rfl rfl, same h .memory rfl rfl⟩

/-- Settles O39: the receive runs write CLK, RXD, RES, T, PH, DLY and the levels. -/
theorem receiveFrame : Obligations.ReceiveFrame := by
  intro s t h
  have same : ∀ q : Reg, planRxbyte.writes q = false → planRxbyteL.writes q = false → q.Same s t := by
    intro q h0 h1
    rcases h with h | h
    · exact exec_same h q h0
    · exact exec_same h q h1
  obtain ⟨rfld, rfldSet⟩ := same .rfld rfl rfl
  obtain ⟨treg, tregSet⟩ := same .treg rfl rfl
  exact ⟨same .txd rfl rfl, rfld, treg, rfldSet, tregSet, same .dataOut rfl rfl, same .dataOe rfl rfl,
    same .rst rfl rfl⟩

/-- A plan writes no register that neither a frame of it nor its result writes. -/
theorem Plan.writes_of_frames {p : Plan} {q : Reg} (hf : ∀ f ∈ p.frames, f.writes q = false)
    (hr : p.result.writes q = false) : p.writes q = false := by
  simpa [Plan.writes, hr] using hf

@[simp] theorem planOf_wrCode (cfg : Config) (k : Kind) (d : Byte) :
    planOf cfg (wrCode k d) = planWrtxn (cfg.tab.get k).wr d := by
  cases k <;> rfl

@[simp] theorem planOf_rdCode (cfg : Config) (k : Kind) : planOf cfg (rdCode k) = planRdtxn (cfg.tab.get k).rd := by
  cases k <;> rfl

/-- An operation of write frames alone. -/
def writesOnly (i : Instr) : Prop :=
  (∃ c d, i = .wrtxn c d) ∨ (∃ k f1 f0 tens ones, i = .wrreg k f1 f0 tens ones) ∨ (∃ k d, i = wrCode k d) ∨
    i = .rsttimer

theorem planOf_writesOnly {i : Instr} (h : writesOnly i) (cfg : Config) :
    (planOf cfg i).result = .nothing ∧ ∀ f ∈ (planOf cfg i).frames, ∃ c d, f = writeFrame c d := by
  rcases h with ⟨c, d, rfl⟩ | ⟨k, f1, f0, tens, ones, rfl⟩ | ⟨k, d, rfl⟩ | rfl
  · exact ⟨rfl, by simp [planOf, planWrtxn]⟩
  · exact ⟨rfl, by simp [planOf, planWrreg]⟩
  · simp [planWrtxn]
  · refine ⟨rfl, fun f hf => ?_⟩
    obtain ⟨w, -, e⟩ := List.mem_map.1 hf
    exact ⟨w.1, w.2, e.symm⟩

/-- Settles O40: a write frame has no step that receives (under `Exec`, since `writeFrame` names the model's frame). -/
theorem Exec.writeFrame : Obligations.WriteFrame := by
  intro i s t hi h
  obtain ⟨result, frames⟩ := planOf_writesOnly hi s.cfg
  have same : ∀ q : Reg, (∀ c d, (Machine.writeFrame c d).writes q = false) → Result.nothing.writes q = false →
      q.Same s t := by
    intro q hf hr
    refine exec_same h q (Plan.writes_of_frames (fun f hm => ?_) (result ▸ hr))
    obtain ⟨c, d, rfl⟩ := frames f hm
    exact hf c d
  obtain ⟨res, resSet⟩ := same .res (fun _ _ => rfl) rfl
  obtain ⟨rfld, rfldSet⟩ := same .rfld (fun _ _ => rfl) rfl
  obtain ⟨treg, tregSet⟩ := same .treg (fun _ _ => rfl) rfl
  exact ⟨same .rxd (fun _ _ => rfl) rfl, res, rfld, treg, resSet, rfldSet, tregSet,
    same .levels (fun _ _ => rfl) rfl⟩

/-- Settles O41: a read frame writes no result register, so the plan's result alone does (under `Exec`, as above). -/
theorem Exec.readFrame : Obligations.ReadFrame := by
  intro i s t h
  refine ⟨fun hi => ?_, ?_, ?_⟩
  · have plan : ∃ c, planOf s.cfg i = planRdtxn c := by
      rcases hi with ⟨c, rfl⟩ | ⟨k, rfl⟩
      · exact ⟨c, rfl⟩
      · exact ⟨_, planOf_rdCode _ k⟩
    obtain ⟨c, plan⟩ := plan
    obtain ⟨rfld, rfldSet⟩ := exec_same h .rfld (by rw [plan]; rfl)
    obtain ⟨treg, tregSet⟩ := exec_same h .treg (by rw [plan]; rfl)
    exact ⟨rfld, rfldSet, treg, tregSet⟩
  · rintro ⟨k, rfl⟩
    exact exec_same h .treg rfl
  · rintro rfl
    obtain ⟨res, resSet⟩ := exec_same h .res rfl
    obtain ⟨rfld, rfldSet⟩ := exec_same h .rfld rfl
    exact ⟨res, resSet, rfld, rfldSet⟩

theorem runFrames_bare (body : List Micro) (reads : Bool) (got : List Byte) (s : State) :
    (runFrames [bareFrame body reads] got s).1 = (runBody body s).1 := by
  simp only [runFrames, Frame.run, bareFrame]
  split <;> next e => simpa using (congrArg Prod.fst e).symm

/-- A transmit run leaves the byte in TXD, wherever it ends: only its first step loads TXD (R145, R146). -/
theorem runBody_transmit_txd (src : Byte) (pol : Bool) (s : State) :
    (runBody (.loadTxd src :: engine pol .txBit) s).1.txd = src := by
  have engine : (engine pol .txBit).any (fun m => m.writes .txd) = false := by cases pol <;> rfl
  exact Reg.Same.body engine { s with txd := src }

/-- Settles O38: of the steps of a transmit run only the load writes TXD, and none the registers named. -/
theorem transmitFrame : Obligations.TransmitFrame := by
  intro src s t h
  have plan : ∃ i pol, exec i s = .next t ∧ planOf s.cfg i =
      { guard := .driving, kind := .protocolAborted
        frames := [bareFrame (.loadTxd src :: engine pol .txBit) false], result := .nothing } := by
    rcases h with h | h
    · exact ⟨_, true, h, rfl⟩
    · exact ⟨_, false, h, rfl⟩
  obtain ⟨i, pol, h, plan⟩ := plan
  have same : ∀ q : Reg, (planTxbyte src).writes q = false → (planTxbyteH src).writes q = false → q.Same s t := by
    intro q low high
    refine exec_same h q ?_
    rw [plan]
    cases pol
    · exact high
    · exact low
  have txd : t.txd = src := by
    obtain ⟨-, rfl⟩ := exec_next h
    have completed : (complete (planOf s.cfg i) (framesRun i s)).txd = (framesRun i s).1.txd :=
      Reg.Same.complete (q := .txd) (by rw [plan]; rfl) _
    have ran : (framesRun i s).1.txd = src := by
      rw [framesRun, plan, runFrames_bare]
      exact runBody_transmit_txd src pol _
    exact completed.trans ran
  obtain ⟨res, resSet⟩ := same .res rfl rfl
  obtain ⟨rfld, rfldSet⟩ := same .rfld rfl rfl
  obtain ⟨treg, tregSet⟩ := same .treg rfl rfl
  exact ⟨txd, same .rxd rfl rfl, res, rfld, treg, resSet, rfldSet, tregSet, same .dataOe rfl rfl, same .rst rfl rfl,
    same .levels rfl rfl⟩

/-! What a turn of the sequencer can do. -/

/-- The turns of the sequencer: nothing while it is idle, a count of a hold, a step of the body, the final lowering, and
what follows a frame. -/
inductive Turned (s : State) : State → Prop where
  | idle : s.seq = .idle → Turned s s
  | count {r : Running} {ms : List Micro} {d : Nat} : s.seq = .run r → r.body = .hold :: ms →
      d ≤ max s.cfg.tHold s.dly → Turned s { s with dly := d }
  | act {r : Running} {m : Micro} {ms : List Micro} : s.seq = .run r → r.body = m :: ms →
      Turned s (advance r m ms s)
  | lower {r : Running} : s.seq = .run r → r.body = [] → Turned s (lowerTurn r s)
  | finish {r : Running} : s.seq = .run r → r.body = [] → Turned s (frameTurn r s)

theorem bodyTurn_turned {s t : State} {r : Running} {m : Micro} {ms : List Micro} (hr : s.seq = .run r)
    (hb : r.body = m :: ms) (h : bodyTurn r m ms s = .next t) : Turned s t := by
  cases m with
  | hold =>
    simp only [bodyTurn] at h
    split at h
    · cases h
      exact .count hr hb (Nat.le_max_left _ _)
    · split at h
      · cases h
        exact .act hr hb
      · cases h
        exact .count hr hb (by omega)
  | txBit t =>
    simp only [bodyTurn] at h
    split at h
    · cases h
      exact .act hr hb
    · cases h
  | loadTxd | clearRxd | clk | rxBit | rst | dir =>
    cases h
    exact .act hr hb

theorem turn_turned {s t : State} (h : turn s = .next t) : Turned s t := by
  unfold turn at h
  split at h
  · next e =>
    cases h
    exact .idle e
  · next r e =>
    split at h
    · next m ms b => exact bodyTurn_turned e b h
    · next b =>
      split at h <;> cases h
      · exact .lower e b
      · exact .finish e b

/-- After a frame the operation completes, or the sequencer goes on to its next frame. -/
theorem frameTurn_cases (r : Running) (s : State) :
    (∃ p out, frameTurn r s = complete p (s, out)) ∨ ∃ r', frameTurn r s = { s with seq := .run r' } := by
  unfold frameTurn
  split
  · next f _ => exact .inl ⟨_, .error f, rfl⟩
  · split
    · exact .inl ⟨_, .ok _, rfl⟩
    · exact .inr ⟨_, rfl⟩

/-! What a step of the machine can do. -/

theorem issue_next {i : Instr} {s t : State} : issue i s = .next t ↔ (planOf s.cfg i).stop s = none ∧
    t = { issueOp (commandWord s.cfg.tab i) s with seq := .run (Running.first i (planOf s.cfg i).frames) } := by
  unfold issue
  cases (planOf s.cfg i).stop s with
  | none => simp [eq_comm]
  | some r => simp

theorem call_next {c : Code} {s t : State} (h : call c s = .next t) : ∃ i, exec i s = .next t := by
  unfold call at h
  split at h
  · exact ⟨_, h⟩
  · cases h

/-- A host read moves the word read and the draw counter alone (R34, R58). -/
theorem hostRead_next {off : Nat} {s t : State} (h : hostRead off s = .next t) :
    t = { s with bus := t.bus, draws := t.draws } := by
  unfold hostRead at h
  repeat' split at h
  all_goals cases h
  all_goals rfl

theorem hostWrite_next {off : Nat} {v : Word} {s t : State} (h : hostWrite off v s = .next t) :
    (off = 0 ∧ ∃ i, issue i s = .next t) ∨ t = s := by
  unfold hostWrite at h
  split at h
  · next zero =>
    split at h
    · exact .inl ⟨zero, _, h⟩
    · cases h
  · split at h <;> cases h
    exact .inr rfl

/-- The state with the host's next action taken off its list. -/
def State.taken (s : State) : State := { s with host := s.host.tail }

theorem State.taken_of_nil {s : State} (h : s.host = []) : s.taken = s := by
  cases s
  simp_all [State.taken]

/-- What a step can do: a turn of the sequencer, an operation called, an operation issued by a write of CMD, any other
access of the host, a hardware reset. -/
inductive Stepped (s t : State) : Prop where
  | turned : Turned s.taken t → Stepped s t
  | called {c : Code} {rest : List HostAct} {i : Instr} : s.host = .call c :: rest → exec i s.taken = .next t →
      Stepped s t
  | issued {w : Word} {rest : List HostAct} {i : Instr} : s.host = .write 0 w :: rest → issue i s.taken = .next t →
      Stepped s t
  | accessed : t = { s.taken with bus := t.bus, draws := t.draws } → Stepped s t
  | reset {rest : List HostAct} : s.host = .reset :: rest → t = hardReset s.taken → Stepped s t

theorem step_stepped {s t : State} (h : step s = .next t) : Stepped s t := by
  simp only [step, machineStep] at h
  split at h
  · next e =>
    rw [← State.taken_of_nil e] at h
    exact .turned (turn_turned h)
  · next a rest e =>
    have taken : { s with host := rest } = s.taken := by simp [State.taken, e]
    rw [taken] at h
    cases a with
    | call c =>
      obtain ⟨i, run⟩ := call_next h
      exact .called e run
    | pass => exact .turned (turn_turned h)
    | read off => exact .accessed (hostRead_next h)
    | write off v =>
      obtain ⟨rfl, i, run⟩ | rfl := hostWrite_next h
      · exact .issued e run
      · exact .accessed rfl
    | reset =>
      cases h
      exact .reset e rfl

/-! The invariant of R39, R33 and R65. -/

theorem Status.Coherent.completion (p : Plan) (x : State × Except Failure (List Byte)) :
    (complete p x).status.Coherent ∧ (complete p x).status.busy = false := by
  obtain ok | ⟨f, err⟩ := complete_status p x
  · simp [ok, Status.Coherent, Status.completed]
  · simp [err, Status.Coherent, Status.failed]

/-- A completion restores the invariant, when the steps before it left power on, no hold and the peer well formed. -/
theorem State.Inv.complete {u : State} (power : u.pwr = true) (dly : u.dly = 0) (peer : u.PeerWf) (p : Plan)
    (out : Except Failure (List Byte)) : (complete p (u, out)).Inv := by
  obtain ⟨pwr, -, -, -, -, -, -, peer'⟩ := complete_frame p (u, out)
  obtain ⟨coherent, notBusy⟩ := Status.Coherent.completion p (u, out)
  have noHold : (Machine.complete p (u, out)).dly = 0 := by
    cases out <;> simp [Machine.complete, dly]
  exact
    { power := pwr.trans power
      busy := by simp [notBusy, State.Idle]
      exclusive := by simp [notBusy]
      errors := coherent
      hold := ⟨by simp [noHold], by simp [noHold]⟩
      peer := by rwa [State.PeerWf, peer'] }

/-- A running operation keeps the invariant in what leaves the sequencer running with no hold counted. -/
theorem State.Inv.running {s u : State} {r : Running} (h : s.Inv) (hr : s.seq = .run r) (keeps : Keeps s u)
    (dly : u.dly = 0) (r' : Running) : { u with seq := .run r' }.Inv := by
  have busy : u.status.busy = true := by simp [keeps.status, h.busy, State.Idle, hr]
  exact
    { power := keeps.pwr.trans h.power
      busy := by simp [busy, State.Idle]
      exclusive := by simpa [keeps.status] using h.exclusive
      errors := by simpa [keeps.status] using h.errors
      hold := ⟨by simp [dly], by simp [dly]⟩
      peer := keeps.peer h.peer }

/-- Outside a hold DLY is 0 (R33). -/
theorem State.HoldOk.outside {s : State} {r : Running} (h : s.HoldOk) (hr : s.seq = .run r)
    (hb : ∀ ms, r.body ≠ .hold :: ms) : s.dly = 0 := by
  by_contra dly
  obtain ⟨r', ms, e, b⟩ := h.2 dly
  rw [hr] at e
  cases e
  exact hb ms b

theorem State.HoldOk.idle {s : State} (h : s.HoldOk) (idle : s.seq = .idle) : s.dly = 0 := by
  by_contra dly
  obtain ⟨r, ms, e, -⟩ := h.2 dly
  simp [idle] at e

theorem run_dly {m : Micro} {s : State} (h : m ≠ .hold → s.dly = 0) : (m.run s).1.dly = 0 := by
  by_cases hold : m = .hold
  · subst hold
    rfl
  · have same : Reg.dly.Same s (m.run s).1 := .micro (by cases m <;> simp_all [Micro.writes]) s
    exact Eq.trans same (h hold)

theorem State.Inv.turned {s t : State} (h : s.Inv) (ht : Turned s t) : t.Inv := by
  cases ht with
  | idle => exact h
  | @count r ms d hr hb hd =>
    have bound : d ≤ s.cfg.tHold := by
      have := h.hold.1
      omega
    exact ⟨h.power, h.busy, h.exclusive, h.errors, ⟨bound, fun _ => ⟨r, ms, hr, hb⟩⟩, h.peer⟩
  | @act r m ms hr hb =>
    refine h.running hr (.micro m s) (run_dly fun hold => h.hold.outside hr fun ms' hb' => hold ?_) _
    rw [hb] at hb'
    exact (List.cons.inj hb').1
  | @lower r hr hb =>
    have dly : (Machine.lower r.err s).1.dly = 0 := by
      rw [lower_state]
      exact run_dly fun _ => h.hold.outside hr (by simp [hb])
    exact h.running hr (.lower r.err s) dly _
  | @finish r hr hb =>
    have dly := h.hold.outside hr (by simp [hb])
    obtain ⟨p, out, e⟩ | ⟨r', e⟩ := frameTurn_cases r s
    · rw [e]
      exact .complete h.power dly h.peer p out
    · rw [e]
      exact h.running hr (.refl s) dly r'

theorem stop_busy {p : Plan} {s : State} (h : p.stop s = none) : s.status.busy = false := by
  unfold Plan.stop at h
  split at h
  · cases h
  · next notBusy => simpa using notBusy

/-- An operation begins only while the block is idle. -/
theorem State.Inv.idle_of_stop {s : State} (h : s.Inv) {p : Plan} (hs : p.stop s = none) : s.seq = .idle := by
  have notBusy := stop_busy hs
  by_contra run
  simp [h.busy.2 run] at notBusy

theorem State.Inv.exec {i : Instr} {s t : State} (h : s.Inv) (ht : exec i s = .next t) : t.Inv := by
  obtain ⟨stop, rfl⟩ := exec_next ht
  have keeps := framesRun_keeps i s
  have dly : (framesRun i s).1.dly = 0 :=
    runFrames_preserves (P := fun u => u.dly = 0) (fun _ _ _ _ _ hu => run_dly fun _ => hu) _ _
      (h.hold.idle (h.idle_of_stop stop))
  exact .complete (keeps.pwr.trans h.power) dly (keeps.peer h.peer) _ _

theorem State.Inv.issue {i : Instr} {s t : State} (h : s.Inv) (ht : issue i s = .next t) : t.Inv := by
  obtain ⟨stop, rfl⟩ := issue_next.1 ht
  have dly := h.hold.idle (h.idle_of_stop stop)
  exact
    { power := h.power
      busy := by simp [State.Idle, Status.issued]
      exclusive := by simp [Status.issued]
      errors := by simp [Status.Coherent, Status.issued]
      hold := ⟨by simp [dly], by simp [dly]⟩
      peer := h.peer }

theorem hardReset_inv {s : State} (peer : s.PeerWf) : (hardReset s).Inv where
  power := rfl
  busy := by simp [hardReset, State.reset, State.Idle, Status.zero]
  exclusive := by simp [hardReset, State.reset, Status.zero]
  errors := by simp [hardReset, State.reset, Status.Coherent, Status.zero]
  hold := ⟨by simp [hardReset, State.reset], by simp [hardReset, State.reset]⟩
  peer := by
    intro p hp
    obtain ⟨q, hq, rfl⟩ := Option.map_eq_some_iff.1 hp
    exact (peer q hq).cut s

theorem State.Inv.environment {s : State} (h : s.Inv) (host : List HostAct) (bus : Word) (draws : Nat) :
    { s with host := host, bus := bus, draws := draws }.Inv :=
  ⟨h.power, h.busy, h.exclusive, h.errors, h.hold, h.peer⟩

/-- Settles O48, along what a step can do. -/
theorem stepKeepsInv : Obligations.StepKeepsInv := by
  intro s t h ht
  have taken : s.taken.Inv := h.environment s.host.tail s.bus s.draws
  cases step_stepped ht with
  | turned turn => exact taken.turned turn
  | called _ run => exact taken.exec run
  | issued _ run => exact taken.issue run
  | accessed e =>
    rw [e]
    exact h.environment s.host.tail t.bus t.draws
  | reset _ e =>
    rw [e]
    exact hardReset_inv h.peer

/-- Settles O49: the reset state is its own hardware reset. -/
theorem resetHasInv : Obligations.ResetHasInv := hardReset_inv (s := State.reset) State.reset_peerWf

/-! The lines (R39 (e), R68). -/

theorem SameLines.trans {s t u : State} (a : SameLines s t) (b : SameLines t u) : SameLines s u := by
  obtain ⟨clk, out, oe, rst⟩ := a
  obtain ⟨clk', out', oe', rst'⟩ := b
  exact ⟨clk'.trans clk, out'.trans out, oe'.trans oe, rst'.trans rst⟩

/-- Between two states the trace only grew, and the lines are the same unless it did. -/
def LinesByEvents (s t : State) : Prop :=
  s.trace.length ≤ t.trace.length ∧ (t.trace.length = s.trace.length → SameLines s t)

theorem LinesByEvents.of_lines {s t : State} (trace : t.trace = s.trace) (lines : SameLines s t) :
    LinesByEvents s t := ⟨by rw [trace], fun _ => lines⟩

theorem LinesByEvents.of_event {s t : State} (h : ∃ e, t.trace = s.trace ++ [e]) : LinesByEvents s t := by
  obtain ⟨e, trace⟩ := h
  simp [LinesByEvents, trace]

theorem LinesByEvents.trans {s t u : State} (a : LinesByEvents s t) (b : LinesByEvents t u) : LinesByEvents s u := by
  obtain ⟨grow, same⟩ := a
  obtain ⟨grow', same'⟩ := b
  exact ⟨grow.trans grow', fun h => (same (by omega)).trans (same' (by omega))⟩

theorem ask_trace (s : State) : (ask s).2.trace = s.trace := by
  obtain ⟨ps, n, e⟩ := ask_state s
  rw [e]

/-- A drive is one event, whether it succeeds or fails. -/
theorem drive_event (d : Drive) (s : State) : ∃ e, (drive d s).1.trace = s.trace ++ [e] := by
  have asked := ask_trace s
  unfold drive
  split
  · next e =>
    rw [e] at asked
    exact ⟨d.event, by simpa using asked⟩
  · next took _ e =>
    rw [e] at asked
    exact ⟨.failed (.drive d), by cases took <;> simpa using asked⟩

/-- A sample is one event, whether it succeeds or fails. -/
theorem pinSampleData_event (s : State) : ∃ e, (pinSampleData s).1.trace = s.trace ++ [e] := by
  have asked := ask_trace s
  unfold pinSampleData
  split
  · next u e =>
    rw [e] at asked
    obtain ⟨v, lv, dr, e'⟩ := dataIn_spec u
    exact ⟨.smp v, by simpa [e'] using asked⟩
  · next e =>
    rw [e] at asked
    exact ⟨.failed .sample, by simpa using asked⟩

theorem LinesByEvents.micro (m : Micro) (s : State) : LinesByEvents s (m.run s).1 := by
  cases m with
  | loadTxd | clearRxd => exact .of_lines rfl ⟨rfl, rfl, rfl, rfl⟩
  | clk v t =>
    obtain ⟨e, driven⟩ := drive_event (.clk v) { s with t := t }
    refine .of_event ⟨e, ?_⟩
    simp only [Micro.run, pinDriveClk]
    split <;> next e => simpa [e] using driven
  | hold => exact .of_event ⟨_, rfl⟩
  | txBit | rst | dir => exact .of_event (drive_event _ s)
  | rxBit t =>
    obtain ⟨e, sampled⟩ := pinSampleData_event s
    refine .of_event ⟨e, ?_⟩
    simp only [Micro.run]
    split <;> next e => simpa [e] using sampled

theorem LinesByEvents.complete (p : Plan) (x : State × Except Failure (List Byte)) :
    LinesByEvents x.1 (complete p x) := by
  obtain ⟨s, f | got⟩ := x <;> exact .of_lines (by simp [Machine.complete]) (by simp [Machine.complete, SameLines])

theorem LinesByEvents.turned {s t : State} (h : Turned s t) : LinesByEvents s t := by
  cases h with
  | idle | count => exact .of_lines rfl ⟨rfl, rfl, rfl, rfl⟩
  | @act r m ms => exact (LinesByEvents.micro m s).trans (.of_lines rfl ⟨rfl, rfl, rfl, rfl⟩)
  | @lower r =>
    have lowered := LinesByEvents.micro (.rst false) s
    rw [← lower_state r.err] at lowered
    exact lowered.trans (.of_lines rfl ⟨rfl, rfl, rfl, rfl⟩)
  | @finish r =>
    obtain ⟨p, out, e⟩ | ⟨r', e⟩ := frameTurn_cases r s
    · rw [e]
      exact .complete p (s, out)
    · rw [e]
      exact .of_lines rfl ⟨rfl, rfl, rfl, rfl⟩

theorem LinesByEvents.exec {i : Instr} {s t : State} (h : exec i s = .next t) : LinesByEvents s t := by
  obtain ⟨-, rfl⟩ := exec_next h
  have issued : LinesByEvents s (issueOp (commandWord s.cfg.tab i) s) := .of_lines rfl ⟨rfl, rfl, rfl, rfl⟩
  exact (runFrames_preserves (fun _ _ m _ u hu => hu.trans (.micro m u)) _ _ issued).trans (.complete _ _)

/-- Settles O46, along what a step can do. -/
theorem linesNeedEvents : Obligations.LinesNeedEvents := by
  intro s t ht noReset trace
  have lines : LinesByEvents s.taken t := by
    cases step_stepped ht with
    | turned turn => exact .turned turn
    | called _ run => exact .exec run
    | issued _ run =>
      obtain ⟨-, rfl⟩ := issue_next.1 run
      exact .of_lines rfl ⟨rfl, rfl, rfl, rfl⟩
    | accessed e =>
      rw [e]
      exact .of_lines rfl ⟨rfl, rfl, rfl, rfl⟩
    | reset host _ => exact absurd host (noReset _)
  exact lines.2 (congrArg List.length trace)

/-- Settles O47: an idle block turns to itself, and the other accesses move the bus and the draw counter alone. -/
theorem idleHolds : Obligations.IdleHolds := by
  intro s t idle ht noCall noIssue noReset
  have taken : t = { s.taken with bus := t.bus, draws := t.draws } := by
    cases step_stepped ht with
    | turned turn =>
      cases turn with
      | idle => rfl
      | count run | act run | lower run | finish run => simp [State.taken, idle] at run
    | called host _ => exact absurd host (noCall _ _)
    | issued host _ => exact absurd host (noIssue _ _)
    | accessed e => exact e
    | reset host _ => exact absurd host (noReset _)
  exact ⟨by rw [taken]; exact ⟨rfl, rfl, rfl, rfl⟩, taken⟩

/-! Hardware reset (R38, R270, R271). -/

/-- Settles O50: each value is a field of `State.reset`, or a host read of one. -/
theorem resetValues : Obligations.ResetValues := by
  refine ⟨rfl, rfl, rfl, rfl, rfl, rfl, rfl, rfl, rfl, by decide, rfl, rfl, rfl, rfl, rfl, rfl, fun i hi => ?_⟩
  interval_cases i <;> rfl

/-- Settles O51: `hardReset` writes the fields of `State.reset` from any state. -/
theorem hardwareReset : Obligations.HardwareReset := by
  intro s rest h
  refine ⟨hardReset { s with host := rest }, by simp [step, machineStep, h, hostTurn], ?_⟩
  simp [hardReset, State.reset]

/-- Settles O7: BUSY stops the plan before its guard is asked. -/
theorem busyRefuses : Obligations.BusyRefuses := by
  intro i s hw busy
  have stop : (planOf s.cfg i).stop s = some .issueWhileBusy := by simp [Plan.stop, busy]
  constructor
  · rw [exec_eq_perform hw]
    simp [perform, stop]
  · simp [issue, stop]

/-! The words the host reads (R29, R34, R35). -/

/-- Settles O58: each field is the part of the word at its place. -/
theorem statusWord : Obligations.StatusWord := by
  rintro ⟨busy, done, err, ekind, ecause, estep⟩
  have code : (Status.word ⟨busy, done, err, ekind, ecause, estep⟩).extractLsb' 4 3 = ekindCode ekind := by
    simp (disch := omega) only [Status.word, BitVec.extractLsb'_append_eq_of_add_le, BitVec.extractLsb'_append_eq_of_le]
    simp
  refine ⟨?_, ?_, ?_, ?_, ?_, ?_, ?_, ?_⟩
  case refine_5 =>
    rw [code]
    cases ekind with
    | none => rfl
    | some k => cases k <;> rfl
  case refine_7 | refine_8 =>
    simp (disch := omega) only [Status.word, BitVec.extractLsb'_append_eq_of_add_le, BitVec.extractLsb'_append_eq_of_le]
    simp
  all_goals
    simp only [Status.word, BitVec.getLsbD_append]
    simp

/-- Settles O56: a byte register is read whole, and RFLD and PINS are read field by field. -/
theorem hostReads : Obligations.HostReads := by
  intro s
  refine ⟨rfl, rfl, ⟨_, rfl, ?_⟩, ⟨_, rfl, ?_⟩, rfl, rfl, rfl, rfl, rfl, rfl, rfl⟩
  · refine ⟨?_, ?_, ?_, ?_, ?_, rfl⟩
    case refine_1 | refine_2 =>
      simp only [fieldsWord, BitVec.getLsbD_append]
      simp
    case refine_3 | refine_4 =>
      simp (disch := omega) only [fieldsWord, BitVec.extractLsb'_append_eq_of_add_le,
        BitVec.extractLsb'_append_eq_of_le]
      simp
    case refine_5 =>
      have mask : (0xFFFCF0F0 : Word) = 0x3FFF#14 ++ 0#1 ++ 0#1 ++ 0xF#4 ++ 0#4 ++ 0xF#4 ++ 0#4 := rfl
      rw [mask]
      simp only [fieldsWord]
      rw [BitVec.and_append, BitVec.and_append, BitVec.and_append, BitVec.and_append, BitVec.and_append,
        BitVec.and_append]
      simp only [BitVec.and_zero, BitVec.zero_and]
      rfl
  · refine ⟨?_, ?_, ?_, fun driving => ?_, ?_, ?_, ?_, rfl⟩
    case refine_4 =>
      simp only [pinsWord, pinsLevel, driving, BitVec.getLsbD_append]
      simp
    case refine_7 =>
      simp (disch := omega) only [pinsWord, BitVec.extractLsb'_append_eq_of_le]
      simp
    all_goals
      simp only [pinsWord, BitVec.getLsbD_append]
      simp

end Sys2Proof.Machine

namespace Sys2Proof

/-! A command word that decodes is the word of what it decodes to (R80 to R85). -/

theorem subOfKind_kindOf {p : Parts} (h : p.sub.getLsbD 3 = false) : subOfKind (kindOf p) = p.sub := by
  rw [subOfKind, kindOf, Kind.code_ofCode]
  generalize p.sub = x at h
  revert x
  decide

theorem aOfFlags_flagsOf {x : Byte} (h : x.extractLsb' 2 6 = 0) : aOfFlags (flagsOf x).1 (flagsOf x).2 = x := by
  revert x
  decide

theorem byteOfDigit_digitOf {x : Byte} (h : x.extractLsb' 4 4 = 0) : byteOfDigit (digitOf x) = x := by
  revert x
  decide

theorem setrst_sub {x : BitVec 4} (h : x.extractLsb' 1 3 = 0) : 0#3 ++ BitVec.ofBool (x.getLsbD 0) = x := by
  revert x
  decide

theorem setdir_sub {x : BitVec 4} (h : x.extractLsb' 1 3 = 0) :
    (if (if x.getLsbD 0 then Dir.out else .inp) = .out then 1 else 0) = x := by
  revert x
  decide

theorem Parts.ext_iff {p q : Parts} :
    p = q ↔ p.opc = q.opc ∧ p.sub = q.sub ∧ p.a = q.a ∧ p.b = q.b ∧ p.c = q.c := by
  cases p
  cases q
  exact Parts.mk.injEq .. |>.to_iff

theorem partsReserved_restOf (p : Parts) : partsReserved p.opc (restOf p) = p := by
  obtain ⟨opc, sub, a, b, c⟩ := p
  simp only [partsReserved, restOf, Parts.mk.injEq, true_and]
  simp (disch := omega) only [BitVec.extractLsb'_append_eq_of_add_le, BitVec.extractLsb'_append_eq_of_le]
  simp

theorem encodeParts_encOf (tab : CmdTab) (k : Kind) (f1 f0 : Bool) (tens ones : BitVec 4) :
    encodeParts tab (encOf k f1 f0 tens ones) = partsK 0x6 k f1 f0 tens ones := by
  cases k <;> rfl

theorem encodeParts_decOf (tab : CmdTab) (k : Kind) (b : Byte) :
    encodeParts tab (decOf k b) = ⟨0x7, subOfKind k, 0, 0, b⟩ := by
  cases k <;> rfl

variable {tab : CmdTab} {p : Parts} {i : Instr}

theorem encodeParts_of_decodeB (ho : p.opc = 1) (h : decodeB p = .ok i) : encodeParts tab i = p := by
  obtain ⟨opc, sub, a, b, c⟩ := p
  unfold decodeB at h
  repeat' split at h
  all_goals cases h
  all_goals simp_all [encodeParts]

theorem encodeParts_of_decodeK {mk : Kind → Bool → Bool → BitVec 4 → BitVec 4 → Instr} {opc : BitVec 4}
    (hmk : ∀ k f1 f0 tens ones, encodeParts tab (mk k f1 f0 tens ones) = partsK opc k f1 f0 tens ones)
    (ho : p.opc = opc) (h : decodeK mk p = .ok i) : encodeParts tab i = p := by
  unfold decodeK at h
  split at h
  · next legal =>
    cases h
    simp only [legalK, Bool.and_eq_true, Bool.not_eq_true', beq_iff_eq] at legal
    obtain ⟨⟨⟨sub, a⟩, b⟩, c⟩ := legal
    rw [hmk, partsK, subOfKind_kindOf sub, aOfFlags_flagsOf a, byteOfDigit_digitOf b, byteOfDigit_digitOf c, ← ho]
  · cases h

theorem of_ite_ok {c : Prop} [Decidable c] {x y : Except Reject Instr} {Q : Prop} (hx : c → x = .ok i → Q)
    (hy : ¬ c → y = .ok i → Q) (h : (if c then x else y) = .ok i) : Q := by
  split at h
  · next hc => exact hx hc h
  · next hc => exact hy hc h

/-- A row of the decoder that accepts when its must-be-zero bits are 0. -/
theorem of_ite_mustBeZero {c : Prop} [Decidable c] {j : Instr}
    (h : (if c then .ok j else .error .mustBeZero : Except Reject Instr) = .ok i) : c ∧ j = i := by
  split at h
  · next hc => exact ⟨hc, Except.ok.inj h⟩
  · cases h

/-- Along the operation map of R82. -/
theorem encodeParts_of_decodeParts (h : decodeParts p = .ok i) : encodeParts tab i = p := by
  revert h
  unfold decodeParts
  refine of_ite_ok (fun o h => ?_) fun n0 => ?_
  · cases h
    rw [encodeParts, ← o, partsReserved_restOf]
  refine of_ite_ok (fun o h => ?_) fun n1 => ?_
  · exact encodeParts_of_decodeB o h
  refine of_ite_ok (fun o h => ?_) fun n2 => ?_
  · obtain ⟨zeros, rfl⟩ := of_ite_mustBeZero h
    simp [encodeParts, Parts.ext_iff, o, zeros]
  refine of_ite_ok (fun o h => ?_) fun n3 => ?_
  · obtain ⟨zeros, rfl⟩ := of_ite_mustBeZero h
    simp [encodeParts, Parts.ext_iff, o, zeros]
  refine of_ite_ok (fun o h => ?_) fun n4 => ?_
  · exact encodeParts_of_decodeK (fun _ _ _ _ _ => rfl) o h
  refine of_ite_ok (fun o h => ?_) fun n5 => ?_
  · obtain ⟨⟨sub, zeros⟩, rfl⟩ := of_ite_mustBeZero h
    simp [encodeParts, Parts.ext_iff, subOfKind_kindOf sub, o, zeros]
  refine of_ite_ok (fun o h => ?_) fun n6 => ?_
  · exact encodeParts_of_decodeK (encodeParts_encOf tab) o h
  refine of_ite_ok (fun o h => ?_) fun n7 => ?_
  · obtain ⟨⟨sub, zeros⟩, rfl⟩ := of_ite_mustBeZero h
    simp [encodeParts_decOf, Parts.ext_iff, subOfKind_kindOf sub, o, zeros]
  refine of_ite_ok (fun o h => ?_) fun n8 => ?_
  · obtain ⟨zeros, rfl⟩ := of_ite_mustBeZero h
    simp [encodeParts, Parts.ext_iff, o, zeros]
  refine of_ite_ok (fun o h => ?_) fun n9 => ?_
  · obtain ⟨zeros, rfl⟩ := of_ite_mustBeZero h
    simp [encodeParts, Parts.ext_iff, o, zeros]
  refine of_ite_ok (fun o h => ?_) fun nA => ?_
  · obtain ⟨⟨sub, zeros⟩, rfl⟩ := of_ite_mustBeZero h
    simp only [encodeParts, Parts.ext_iff, setrst_sub sub, o, zeros, and_self]
  refine of_ite_ok (fun o h => ?_) fun nB => ?_
  · obtain ⟨⟨sub, zeros⟩, rfl⟩ := of_ite_mustBeZero h
    simp only [encodeParts, Parts.ext_iff, setdir_sub sub, o, zeros, and_self]
  refine of_ite_ok (fun o h => ?_) fun nC => ?_
  · cases h
    rw [encodeParts, ← o, partsReserved_restOf]
  refine of_ite_ok (fun o h => ?_) fun nD => ?_
  · cases h
    rw [encodeParts, ← o, partsReserved_restOf]
  refine of_ite_ok (fun o h => ?_) fun nE => ?_
  · cases h
    rw [encodeParts, ← o, partsReserved_restOf]
  rintro ⟨⟩
  have o : p.opc = 0xF := by bv_omega
  rw [encodeParts, ← o, partsReserved_restOf]

theorem commandWord_of_decodeWord {w : Word} (h : decodeWord w = .ok i) : commandWord tab i = w := by
  rw [commandWord, encodeParts_of_decodeParts h, Parts.toWord_ofWord]

end Sys2Proof

namespace Sys2Proof.Machine

/-! Writes of the host (R34, R132). -/

/-- The twelve registers are the multiples of 4 up to 0x2C (R34). -/
theorem hostOffset_iff (off : Nat) : hostOffset off = true ↔
    off ∈ [0x00, 0x04, 0x08, 0x0C, 0x10, 0x14, 0x18, 0x1C, 0x20, 0x24, 0x28, 0x2C] := by
  simp only [hostOffset, Bool.and_eq_true, decide_eq_true_eq, List.mem_cons, List.not_mem_nil, or_false]
  omega

theorem tregByte_none {r : TimeRegs} {n : Nat} (h : 7 ≤ n) : tregByte r n = none := by
  obtain ⟨m, rfl⟩ := Nat.exists_eq_add_of_le h
  rw [Nat.add_comm]
  rfl

/-- An access to any other offset faults (log 19). -/
theorem access_faults {off : Nat} (h : hostOffset off = false) (v : Word) (s : State) :
    hostWrite off v s = .fault (.noSuchRegister off) ∧ hostRead off s = .fault (.noSuchRegister off) := by
  have beyond : off % 4 = 0 → 0x2C < off := by simpa [hostOffset] using h
  have none0 : off ≠ 0x00 ∧ off ≠ 0x04 ∧ off ≠ 0x08 ∧ off ≠ 0x0C ∧ off ≠ 0x2C := by omega
  obtain ⟨h0, h4, h8, hC, h2C⟩ := none0
  refine ⟨by simp [hostWrite, h0, h], ?_⟩
  simp only [hostRead, h0, h4, h8, hC, h2C, if_false]
  split
  · next aligned => rw [tregByte_none (by omega)]
  · rfl

@[simp] theorem first_op (i : Instr) (fs : List Frame) : (Running.first i fs).op = i := by cases fs <;> rfl

@[simp] theorem first_err (i : Instr) (fs : List Frame) : (Running.first i fs).err = none := by cases fs <;> rfl

@[simp] theorem first_got (i : Instr) (fs : List Frame) : (Running.first i fs).got = [] := by cases fs <;> rfl

/-- Settles O57: the word of CMD is the word of the operation it decodes to, and no guard stops that operation. -/
theorem hostWrites : Obligations.HostWrites := by
  intro off v s
  refine ⟨?_, fun h => ?_, fun h => access_faults (by simpa using mt (hostOffset_iff off).1 h) v s⟩
  · rintro i rfl decoded wf notBusy driving
    have issued := issue_next.2 ⟨planOf_stop wf notBusy driving, rfl⟩
    rw [commandWord_of_decodeWord decoded] at issued
    refine ⟨Running.first i (planOf s.cfg i).frames, by simp, by simp, by simp, ?_⟩
    have write : hostWrite 0 v s = issue i s := by simp [hostWrite, decode, decoded]
    exact write.trans issued
  · have known : hostOffset off = true := (hostOffset_iff off).2 (.tail _ h)
    have notCmd : off ≠ 0 := by
      rintro rfl
      simp at h
    simp [hostWrite, notCmd, known]

/-! Turns one after another. -/

theorem turns_one {s u : State} (h : turn s = .next u) : turns 1 s = .next u := by simp [turns, h]

theorem turns_add {m : Nat} {s u : State} (h : turns m s = .next u) (n : Nat) : turns (m + n) s = turns n u := by
  induction m generalizing s with
  | zero =>
    cases h
    rw [Nat.zero_add]
  | succ m ih =>
    rw [Nat.add_right_comm]
    simp only [turns] at h ⊢
    split at h
    · exact ih h
    · cases h
    · cases h

theorem turns_trans {m n : Nat} {s u : State} {o : Host.Outcome State Fault Refusal} (a : turns m s = .next u)
    (b : turns n u = o) : turns (m + n) s = o := (turns_add a n).trans b

/-! A hold (R33, R126; log 16). -/

section Hold
variable {s : State} {r : Running} {ms : List Micro}

/-- The turns of a hold before its last count DLY down from T_HOLD. -/
theorem turns_hold_counting (hr : s.seq = .run r) (hb : r.body = .hold :: ms) (h0 : s.dly = 0) {k : Nat}
    (hk : k < s.cfg.tHold) : turns (k + 1) s = .next { s with dly := s.cfg.tHold - k } := by
  induction k with
  | zero => exact turns_one (by simp [turn, hr, hb, bodyTurn, h0])
  | succ k ih =>
    have counting : ¬ s.cfg.tHold - k = 0 ∧ ¬ s.cfg.tHold - k = 1 := by omega
    obtain ⟨notStart, notEnd⟩ := counting
    exact turns_trans (ih (by omega)) (turns_one (by simp [turn, hr, hb, bodyTurn, notStart, notEnd, Nat.sub_sub]))

/-- The last turn of a hold is its event. -/
theorem turns_hold (hr : s.seq = .run r) (hb : r.body = .hold :: ms) (h0 : s.dly = 0) :
    turns (s.cfg.tHold + 1) s = .next (advance r .hold ms s) := by
  have count := turns_hold_counting hr hb h0 (Nat.lt_add_one s.cfg.holdExtra)
  have one : s.cfg.tHold - s.cfg.holdExtra = 1 := by simp [Config.tHold]
  exact turns_trans count (turns_one (by simp [turn, hr, hb, bodyTurn, one]; rfl))

end Hold

/-! One cycle of the engine (R140). -/

/-- `n` turns lead from `s` to `u`, and each of them ends in a state with `P`. -/
def Passes (P : State → Prop) (n : Nat) (s u : State) : Prop :=
  turns n s = .next u ∧ ∀ k, 0 < k → k ≤ n → ∃ v, turns k s = .next v ∧ P v

section Passes
variable {P : State → Prop} {m n : Nat} {s u w : State}

theorem Passes.one (h : turn s = .next u) (hu : P u) : Passes P 1 s u := by
  refine ⟨turns_one h, fun k pos le => ⟨u, ?_, hu⟩⟩
  obtain rfl : k = 1 := by omega
  exact turns_one h

theorem Passes.trans (a : Passes P m s u) (b : Passes P n u w) : Passes P (m + n) s w := by
  refine ⟨turns_trans a.1 b.1, fun k pos le => ?_⟩
  by_cases early : k ≤ m
  · exact a.2 k pos early
  · obtain ⟨v, run, hv⟩ := b.2 (k - m) (by omega) (by omega)
    refine ⟨v, ?_, hv⟩
    rw [← Nat.add_sub_cancel' (Nat.le_of_not_le early)]
    exact turns_trans a.1 run

theorem Passes.last (h : Passes P n s u) (pos : 0 < n) : P u := by
  obtain ⟨v, run, hv⟩ := h.2 n pos (Nat.le_refl n)
  cases h.1.symm.trans run
  exact hv

end Passes

/-- T holds `t`, PH and the clock line the phase `v` (R28). -/
def AtPhase (t : BitVec 3) (v : Bool) (s : State) : Prop := s.t = t ∧ s.clk = v ∧ s.ph = v

/-- The sequencer stands before the steps `ms` of `r` with no hold counted, after `ev` events, and the oracle's answers
are `ps`; `oe` and `cfg` are the direction and the configuration, which no step of a cycle changes. -/
structure Standing (r : Running) (oe : Bool) (cfg : Config) (ms : List Micro) (ev : Nat) (ps : List PinAnswer)
    (s : State) : Prop where
  seq : s.seq = .run { r with body := ms }
  dly : s.dly = 0
  dataOe : s.dataOe = oe
  cfg : s.cfg = cfg
  evIdx : s.evIdx = ev
  pins : s.pins = ps

section Cycle
variable {r : Running} {oe : Bool} {cfg : Config} {ms : List Micro} {ev : Nat} {ps : List PinAnswer} {s : State}
  {v : Bool} {t : BitVec 3}

/-- What a successful pin action of a cycle does beside its line: one answer taken, one event counted. -/
structure Acted (ps : List PinAnswer) (s u : State) : Prop where
  dataOe : u.dataOe = s.dataOe
  cfg : u.cfg = s.cfg
  dly : u.dly = s.dly
  evIdx : u.evIdx = s.evIdx + 1
  pins : u.pins = ps

theorem run_clk_ok (h : s.pins = .ok :: ps) (v : Bool) (t : BitVec 3) :
    ∃ u, (Micro.clk v t).run s = (u, none) ∧ AtPhase t v u ∧ Acted ps s u := by
  refine ⟨_, by simp only [Micro.run, pinDriveClk, drive_ok (s := { s with t := t }) (.clk v) h]; rfl, ?_, ?_⟩
  · exact ⟨rfl, rfl, rfl⟩
  · exact ⟨rfl, rfl, rfl, rfl, rfl⟩

/-- The action of a cycle moves neither T and PH nor the clock. -/
theorem run_act_ok {act : BitVec 3 → Micro} (ha : act = .txBit ∨ act = .rxBit) (h : s.pins = .ok :: ps)
    (t : BitVec 3) :
    ∃ u, (act t).run s = (u, none) ∧ (∀ t v, AtPhase t v s → AtPhase t v u) ∧ Acted ps s u := by
  rcases ha with rfl | rfl
  · exact ⟨_, drive_ok (.data (bitAt s.txd t)) h, fun _ _ at_ => at_, rfl, rfl, rfl, rfl, rfl⟩
  · obtain ⟨v, lv, dr, sampled⟩ := pinSampleData_ok h
    refine ⟨_, by simp only [Micro.run, sampled]; rfl, ?_, ?_⟩
    · exact fun _ _ at_ => at_
    · exact ⟨rfl, rfl, rfl, rfl, rfl⟩

/-- A turn that does the step at hand, when its pin action succeeds. -/
theorem Standing.advance {m : Micro} {u : State} (h : Standing r oe cfg (m :: ms) ev (.ok :: ps) s)
    (ht : turn s = .next (advance { r with body := m :: ms } m ms s)) (run : m.run s = (u, none)) (acted : Acted ps s u)
    (phase : AtPhase t v u) : ∃ u, Passes (AtPhase t v) 1 s u ∧ Standing r oe cfg ms (ev + 1) ps u := by
  have next : Machine.advance { r with body := m :: ms } m ms s = { u with seq := .run { r with body := ms } } := by
    simp [Machine.advance, run, Running.after]
  rw [next] at ht
  exact ⟨_, .one ht phase, rfl, acted.dly.trans h.dly, acted.dataOe.trans h.dataOe, acted.cfg.trans h.cfg,
    by rw [← h.evIdx]; exact acted.evIdx, acted.pins⟩

theorem Standing.clk (h : Standing r oe cfg (.clk v t :: ms) ev (.ok :: ps) s) :
    ∃ u, Passes (AtPhase t v) 1 s u ∧ Standing r oe cfg ms (ev + 1) ps u := by
  obtain ⟨u, run, phase, acted⟩ := run_clk_ok h.pins v t
  exact h.advance (by simp [turn, h.seq, bodyTurn]) run acted phase

theorem Standing.hold (h : Standing r oe cfg (.hold :: ms) ev ps s) (at_ : AtPhase t v s) :
    ∃ u, Passes (AtPhase t v) (cfg.tHold + 1) s u ∧ Standing r oe cfg ms (ev + 1) ps u := by
  obtain ⟨seq, dly, dataOe, rfl, evIdx, pins⟩ := h
  have done := turns_hold seq rfl dly
  refine ⟨_, ⟨done, fun k pos le => ?_⟩, ?_⟩
  · by_cases last : k = s.cfg.tHold + 1
    · subst last
      exact ⟨_, done, at_⟩
    · obtain ⟨j, rfl⟩ := Nat.exists_eq_add_of_lt pos
      rw [Nat.zero_add] at *
      exact ⟨_, turns_hold_counting seq rfl dly (by omega), at_⟩
  · exact ⟨rfl, rfl, dataOe, rfl, by rw [← evIdx]; rfl, pins⟩

theorem Standing.act {act : BitVec 3 → Micro} (h : Standing r oe cfg (act t :: ms) ev (.ok :: ps) s)
    (ha : act = .txBit ∧ oe = true ∨ act = .rxBit) (at_ : AtPhase t v s) :
    ∃ u, Passes (AtPhase t v) 1 s u ∧ Standing r oe cfg ms (ev + 1) ps u := by
  have goes : turn s = .next (Machine.advance { r with body := act t :: ms } (act t) ms s) := by
    rcases ha with ⟨rfl, out⟩ | rfl
    · simp [turn, h.seq, bodyTurn, h.dataOe, out]
    · simp [turn, h.seq, bodyTurn]
  obtain ⟨u, run, phase, acted⟩ := run_act_ok (ha.imp_left And.left) h.pins t
  exact h.advance goes run acted (phase _ _ at_)

/-- A cycle whose pin actions succeed is a low phase and a high phase; the action makes its phase one turn longer. -/
theorem Standing.cycle {pol : Bool} {act : BitVec 3 → Micro}
    (h : Standing r oe cfg (cycle pol act t ++ ms) ev (okPins 3 ps) s)
    (ha : act = .txBit ∧ oe = true ∨ act = .rxBit) :
    ∃ u w, Passes (AtPhase t false) (cfg.tHold + 2 + if pol then 1 else 0) s u ∧
      Passes (AtPhase t true) (cfg.tHold + 2 + if pol then 0 else 1) u w ∧ Standing r oe cfg ms (ev + 5) ps w := by
  have length : 1 + (cfg.tHold + 1) = cfg.tHold + 2 := by omega
  rw [← length]
  cases pol with
  | true =>
    obtain ⟨s1, low, h1⟩ := Standing.clk (ms := .hold :: act t :: .clk true t :: .hold :: ms) h
    obtain ⟨s2, lowHold, h2⟩ := h1.hold (low.last Nat.one_pos)
    obtain ⟨s3, action, h3⟩ := h2.act ha (lowHold.last (Nat.succ_pos _))
    obtain ⟨s4, high, h4⟩ := h3.clk
    obtain ⟨s5, highHold, h5⟩ := h4.hold (high.last Nat.one_pos)
    exact ⟨s3, s5, (low.trans lowHold).trans action, high.trans highHold, h5⟩
  | false =>
    obtain ⟨s1, low, h1⟩ := Standing.clk (ms := .hold :: .clk true t :: .hold :: act t :: ms) h
    obtain ⟨s2, lowHold, h2⟩ := h1.hold (low.last Nat.one_pos)
    obtain ⟨s3, high, h3⟩ := h2.clk
    obtain ⟨s4, highHold, h4⟩ := h3.hold (high.last Nat.one_pos)
    obtain ⟨s5, action, h5⟩ := h4.act ha (highHold.last (Nat.succ_pos _))
    exact ⟨s2, s5, low.trans lowHold, (high.trans highHold).trans action, h5⟩

end Cycle

/-- Settles O60: the counts of a hold, and the low and the high phase of a cycle. -/
theorem holdCounts : Obligations.HoldCounts := by
  refine ⟨fun s r ms hr hb h0 => ⟨fun n pos le => ?_, ?_⟩, fun pol act t s r ms rest hr hb h0 pins ha => ?_⟩
  · obtain ⟨k, rfl⟩ := Nat.exists_eq_add_of_lt pos
    rw [Nat.zero_add] at *
    simpa using turns_hold_counting hr hb h0 (Nat.lt_of_succ_le le)
  · exact ⟨_, turns_hold hr hb h0, rfl, rfl, rfl⟩
  · have start : Standing r s.dataOe s.cfg (cycle pol act t ++ ms) s.evIdx (okPins 3 rest) s :=
      ⟨by rw [← hb, hr], h0, rfl, rfl, rfl, pins⟩
    obtain ⟨u, w, low, high, done⟩ := start.cycle ha
    refine ⟨fun n pos le => ?_, w, ?_, done.seq, done.evIdx, done.dly, done.pins⟩
    · by_cases early : n ≤ s.cfg.tHold + 2 + if pol then 1 else 0
      · obtain ⟨x, run, tx, clk, ph⟩ := low.2 n pos early
        refine ⟨x, run, tx, clk.trans ph.symm, ?_⟩
        rw [ph, eq_comm, decide_eq_false_iff_not]
        omega
      · obtain ⟨k, rfl⟩ := Nat.exists_eq_add_of_lt (Nat.lt_of_not_le early)
        obtain ⟨x, run, tx, clk, ph⟩ := high.2 (k + 1) (Nat.succ_pos k) (by cases pol <;> simp_all <;> omega)
        have reached := turns_trans low.1 run
        refine ⟨x, reached, tx, clk.trans ph.symm, ?_⟩
        rw [ph, eq_comm, decide_eq_true_iff]
        omega
    · have all := turns_trans low.1 high.1
      rwa [show s.cfg.tHold + 2 + (if pol then 1 else 0) + (s.cfg.tHold + 2 + if pol then 0 else 1) =
        2 * s.cfg.tHold + 5 by cases pol <;> simp <;> omega] at all

/-! The steps of an operation do not look at the sequencer. -/

/-- A state with the sequencer put in another position. -/
def State.withSeq (s : State) (q : Seq) : State := { s with seq := q }

section WithSeq
variable (s : State) (q : Seq)

theorem ask_withSeq : ask (s.withSeq q) = ((ask s).1, (ask s).2.withSeq q) := by
  simp only [ask, State.withSeq]
  split <;> rfl

theorem apply_withSeq (d : Drive) : d.apply (s.withSeq q) = (d.apply s).withSeq q := by cases d <;> rfl

theorem emit_withSeq (e : Event) : (s.withSeq q).emit e = (s.emit e).withSeq q := rfl

theorem drive_withSeq (d : Drive) : drive d (s.withSeq q) = ((drive d s).1.withSeq q, (drive d s).2) := by
  unfold drive
  rw [ask_withSeq]
  rcases ask s with ⟨_ | ⟨c, took⟩, u⟩
  · simp only [apply_withSeq, emit_withSeq]
  · cases took
    · rfl
    · simp only [apply_withSeq, emit_withSeq, if_true]

theorem dataIn_withSeq : dataIn (s.withSeq q) = ((dataIn s).1, (dataIn s).2.withSeq q) := by
  have level : peerLevel (s.withSeq q) = peerLevel s := rfl
  have listed : (s.withSeq q).levels = s.levels := rfl
  cases oe : s.dataOe
  · have released : (s.withSeq q).dataOe = false := oe
    simp only [dataIn, oe, released, level, listed, Bool.false_eq_true, if_false]
    cases peerLevel s with
    | some v => rfl
    | none => cases s.levels <;> rfl
  · have driving : (s.withSeq q).dataOe = true := oe
    rw [dataIn_driving oe, dataIn_driving driving]
    rfl

theorem pinSampleData_withSeq :
    pinSampleData (s.withSeq q) = ((pinSampleData s).1.withSeq q, (pinSampleData s).2) := by
  unfold pinSampleData
  rw [ask_withSeq]
  rcases ask s with ⟨_ | ⟨c, took⟩, u⟩
  · simp only [dataIn_withSeq, emit_withSeq]
  · rfl

theorem run_withSeq (m : Micro) : m.run (s.withSeq q) = ((m.run s).1.withSeq q, (m.run s).2) := by
  cases m with
  | loadTxd | clearRxd | hold => rfl
  | txBit | rst | dir => exact drive_withSeq s q _
  | clk v t =>
    have driven := drive_withSeq { s with t := t } q (.clk v)
    show (match drive (.clk v) (State.withSeq { s with t := t } q) with
      | (s', none) => ({ s' with ph := v }, none)
      | (s', some c) => (s', some c)) = _
    rw [driven]
    simp only [Micro.run, pinDriveClk]
    rcases drive (.clk v) { s with t := t } with ⟨u, _ | c⟩ <;> rfl
  | rxBit t =>
    simp only [Micro.run, pinSampleData_withSeq]
    rcases pinSampleData s with ⟨u, c | v⟩ <;> rfl

theorem lower_withSeq (e : Option Failure) : lower e (s.withSeq q) = ((lower e s).1.withSeq q, (lower e s).2) := by
  unfold lower pinDriveRst
  rw [drive_withSeq]
  rcases drive (.rst false) s with ⟨u, _ | c⟩ <;> rfl

theorem complete_withSeq (p : Plan) (out : Except Failure (List Byte)) :
    complete p (s.withSeq q, out) = complete p (s, out) := by
  cases out with
  | error f =>
    simp only [complete, completeErr, spoil]
    cases p.result <;> rfl
  | ok got =>
    simp only [complete, completeOk, deliver]
    cases p.result <;> rfl

end WithSeq

/-! A transmit step of an operation stands only where the direction is OUT (R128). -/

/-- A list of steps that drives the data line only while the direction is OUT, which it is at its start if `oe`. -/
def drivesOut : Bool → List Micro → Bool
  | _, [] => true
  | oe, .txBit _ :: ms => oe && drivesOut oe ms
  | _, .dir d :: ms => drivesOut (d == .out) ms
  | oe, _ :: ms => drivesOut oe ms

/-- A step that drives does so while the direction is OUT, and after a step that succeeds the rest does. -/
theorem drivesOut_cons {m : Micro} {ms : List Micro} {s : State} (h : drivesOut s.dataOe (m :: ms) = true) :
    (∀ t, m = .txBit t → s.dataOe = true) ∧ ((m.run s).2 = none → drivesOut (m.run s).1.dataOe ms = true) := by
  have same : m.writes .dataOe = false → (m.run s).1.dataOe = s.dataOe := fun q => Reg.Same.micro (q := .dataOe) q s
  cases m with
  | dir d =>
    refine ⟨by simp, fun ok => ?_⟩
    have out : (Micro.run (.dir d) s).1.dataOe = (d == .out) := by
      simp only [Micro.run, pinSetDataDir, drive] at ok ⊢
      split at ok
      · next e => simp
      · cases ok
    rw [out]
    exact h
  | txBit t =>
    rw [drivesOut, Bool.and_eq_true] at h
    exact ⟨fun _ _ => h.1, fun _ => by rw [same rfl]; exact h.2⟩
  | loadTxd | clearRxd | clk | hold | rxBit | rst => exact ⟨by simp, fun _ => by rw [same rfl]; exact h⟩

theorem drivesOut_writeFrame (c d : Byte) (oe : Bool) : drivesOut oe (writeFrame c d).body = true := by
  cases oe <;> rfl

theorem drivesOut_readFrame (c : Byte) (oe : Bool) : drivesOut oe (readFrame c).body = true := by
  cases oe <;> rfl

/-- Every frame of a plan turns the direction OUT before it drives, but a transmit run on its own, which is guarded. -/
theorem planOf_drivesOut (cfg : Config) (i : Instr) :
    (∀ f ∈ (planOf cfg i).frames, ∀ oe, drivesOut oe f.body = true) ∨
    (planOf cfg i).guard = .driving ∧ ∃ f, (planOf cfg i).frames = [f] ∧ drivesOut true f.body = true := by
  cases i with
  | txbyte src => exact .inr ⟨rfl, _, rfl, rfl⟩
  | txbyteH src => exact .inr ⟨rfl, _, rfl, rfl⟩
  | rxbyte | rxbyteL | setrst | setdir =>
    refine .inl fun f hf oe => ?_
    obtain rfl := List.mem_singleton.1 hf
    cases oe <;> rfl
  | rsttimer =>
    refine .inl fun f hf => ?_
    obtain ⟨w, -, rfl⟩ := List.mem_map.1 hf
    exact drivesOut_writeFrame w.1 w.2
  | rdtimer =>
    refine .inl fun f hf => ?_
    obtain ⟨c, -, rfl⟩ := List.mem_map.1 hf
    exact drivesOut_readFrame c
  | wrtxn | wrreg | cmdSecWr | cmdMinWr | cmdHourWr | cmdDateWr | cmdMonthWr | cmdDayWr | cmdYearWr | cmdWpWr =>
    refine .inl fun f hf => ?_
    obtain rfl := List.mem_singleton.1 hf
    exact drivesOut_writeFrame _ _
  | rdtxn | rdreg | cmdSecRd | cmdMinRd | cmdHourRd | cmdDateRd | cmdMonthRd | cmdDayRd | cmdYearRd | cmdWpRd =>
    refine .inl fun f hf => ?_
    obtain rfl := List.mem_singleton.1 hf
    exact drivesOut_readFrame _
  | _ => exact .inl fun f hf => nomatch hf

/-! An operation turn by turn (R132, R133; log 14). -/

/-- A state in which the sequencer runs `r`. -/
def State.withRun (s : State) (r : Running) : State := s.withSeq (.run r)

section Turns
variable {r : Running} {s : State}

theorem advance_withRun (m : Micro) (ms : List Micro) : advance r m ms (s.withRun r) =
    (m.run s).1.withRun (r.after ms ((m.run s).2.map fun c => ⟨c, s.evIdx⟩)) := by
  simp only [advance, State.withRun, run_withSeq]
  rfl

/-- The turns of one step: a hold takes its counts, every other step one turn. -/
theorem turns_micro {m : Micro} {ms : List Micro} (hb : r.body = m :: ms) (hd : s.dly = 0)
    (out : ∀ t, m = .txBit t → s.dataOe = true) :
    ∃ n, turns n (s.withRun r) = .next (advance r m ms (s.withRun r)) := by
  have seq : (s.withRun r).seq = .run r := rfl
  cases m with
  | hold => exact ⟨_, turns_hold seq hb hd⟩
  | txBit t =>
    have driving : (s.withRun r).dataOe = true := out t rfl
    exact ⟨1, turns_one (by simp [turn, seq, hb, bodyTurn, driving])⟩
  | loadTxd | clearRxd | clk | rxBit | rst | dir => exact ⟨1, turns_one (by simp [turn, seq, hb, bodyTurn])⟩

/-- The turns of a body arrive where running it whole arrives. -/
theorem turns_body {ms : List Micro} (hb : r.body = ms) (hd : s.dly = 0) (out : drivesOut s.dataOe ms = true) :
    ∃ n, turns n (s.withRun r) = .next ((runBody ms s).1.withRun (r.after [] (runBody ms s).2)) := by
  induction ms generalizing r s with
  | nil =>
    refine ⟨0, ?_⟩
    simp [turns, runBody, Running.after, ← hb]
  | cons m ms ih =>
    obtain ⟨drives, rest⟩ := drivesOut_cons out
    obtain ⟨n, step⟩ := turns_micro hb hd drives
    rw [advance_withRun] at step
    have dly := run_dly (m := m) fun _ => hd
    rcases run : m.run s with ⟨u, _ | c⟩
    · simp only [run, runBody] at step rest dly ⊢
      obtain ⟨k, later⟩ := ih (r := r.after ms none) rfl dly (rest trivial)
      exact ⟨n + k, turns_trans step later⟩
    · simp only [run, runBody] at step ⊢
      exact ⟨n, step⟩

/-- The turn behind a body is the lowering, where one is left, else what follows the frame. -/
theorem turn_behind (hs : s.seq = .run r) (hb : r.body = []) :
    turn s = .next (if r.closes then lowerTurn r s else frameTurn r s) := by
  simp only [turn, hs, hb]
  split <;> rfl

theorem lowerTurn_withRun : lowerTurn r (s.withRun r) =
    (lower r.err s).1.withRun { r with closes := false, err := (lower r.err s).2 } := by
  simp only [lowerTurn, State.withRun, lower_withSeq]
  rfl

/-- The sequencer is at the start of the frame `f`, before the frames `fs`, and nothing failed. -/
structure Running.Begins (r : Running) (f : Frame) (fs : List Frame) : Prop where
  body : r.body = f.body
  closes : r.closes = f.closes
  reads : r.reads = f.reads
  rest : r.rest = fs
  err : r.err = none

/-- The sequencer behind the frame it is in, which ended with `e`. -/
def Running.behind (r : Running) (e : Option Failure) : Running := { r with body := [], closes := false, err := e }

variable {f : Frame} {fs : List Frame}

/-- The sequencer at the start of the frame `f`, before the frames `fs`, with the bytes `got` received. -/
def Running.enter (r : Running) (f : Frame) (fs : List Frame) (got : List Byte) : Running :=
  { r with body := f.body, closes := f.closes, reads := f.reads, rest := fs, err := none, got := got }

/-- The turns of a frame, its lowering with them. -/
theorem turns_frame (h : r.Begins f fs) (hd : s.dly = 0) (out : drivesOut s.dataOe f.body = true) :
    ∃ n, turns n (s.withRun r) = .next ((f.run s).1.withRun (r.behind (f.run s).2)) := by
  obtain ⟨n, body⟩ := turns_body h.body hd out
  have after : ∀ e, r.after [] e = { r with body := [], err := e } := by
    intro e
    cases e <;> simp [Running.after, h.err]
  rw [after] at body
  unfold Frame.run
  cases closes : f.closes
  · refine ⟨n, ?_⟩
    simpa [Running.behind, h.closes, closes] using body
  · have lowered := turn_behind (s := (runBody f.body s).1.withRun { r with body := [], err := (runBody f.body s).2 })
      rfl rfl
    dsimp only at lowered
    rw [if_pos (h.closes.trans closes), lowerTurn_withRun] at lowered
    exact ⟨n + 1, turns_trans body (turns_one lowered)⟩

/-- The turns of a frame and the turn behind it. -/
theorem turns_behind {u : State} {e : Option Failure} (h : r.Begins f fs) (hd : s.dly = 0)
    (out : drivesOut s.dataOe f.body = true) (run : f.run s = (u, e)) :
    ∃ n, turns n (s.withRun r) = .next (frameTurn (r.behind e) (u.withRun (r.behind e))) := by
  obtain ⟨n, frame⟩ := turns_frame h hd out
  rw [run] at frame
  exact ⟨n + 1, turns_trans frame (turns_one (turn_behind (r := r.behind e) rfl rfl))⟩

theorem frameTurn_failed (e : Failure) : frameTurn (r.behind (some e)) (s.withRun (r.behind (some e))) =
    complete (planOf s.cfg r.op) (s, .error e) := by
  rw [← complete_withSeq s]
  rfl

theorem frameTurn_last (h : r.rest = []) : frameTurn (r.behind none) (s.withRun (r.behind none)) =
    complete (planOf s.cfg r.op) (s, .ok (collect r.reads r.got s)) := by
  rw [← complete_withSeq s (.run (r.behind none))]
  simp only [frameTurn, Running.behind, h]
  rfl

theorem frameTurn_next (h : r.rest = f :: fs) : frameTurn (r.behind none) (s.withRun (r.behind none)) =
    s.withRun (r.enter f fs (collect r.reads r.got s)) := by
  simp only [frameTurn, Running.behind, h]
  rfl

/-- The turns of the frames of an operation arrive at its completion. -/
theorem turns_frames (h : r.Begins f fs) (hd : s.dly = 0) (out : drivesOut s.dataOe f.body = true)
    (outs : ∀ g ∈ fs, ∀ oe, drivesOut oe g.body = true) :
    ∃ n, turns n (s.withRun r) = .next (complete (planOf s.cfg r.op) (runFrames (f :: fs) r.got s)) := by
  induction fs generalizing f r s with
  | nil =>
    have cfg := (Keeps.frame f s).cfg
    rcases run : f.run s with ⟨u, _ | e⟩ <;> rw [run] at cfg <;> simp only [runFrames, run] <;> rw [← cfg]
    · rw [← h.reads, ← frameTurn_last h.rest]
      exact turns_behind h hd out run
    · rw [← frameTurn_failed]
      exact turns_behind h hd out run
  | cons g fs ih =>
    have cfg := (Keeps.frame f s).cfg
    have dly := Frame.run_preserves (P := fun u => u.dly = 0) (f := f) (fun _ _ _ hu => run_dly fun _ => hu) s hd
    rcases run : f.run s with ⟨u, _ | e⟩ <;> rw [run] at cfg dly <;> simp only [runFrames, run] <;> rw [← cfg]
    · obtain ⟨n, behind⟩ := turns_behind h hd out run
      rw [frameTurn_next h.rest] at behind
      obtain ⟨k, later⟩ := ih (r := r.enter g fs (collect r.reads r.got u)) (f := g) (s := u)
        ⟨rfl, rfl, rfl, rfl, rfl⟩ dly (outs g (.head _) _) (fun g' hg' => outs g' (.tail _ hg'))
      rw [← h.reads]
      exact ⟨n + k, turns_trans behind later⟩
    · rw [← frameTurn_failed]
      exact turns_behind h hd out run

end Turns

/-- The first frame of a plan drives only while the direction is OUT, and so does every later one. -/
theorem drivesOut_of_stop {i : Instr} {s : State} {f : Frame} {fs : List Frame} (hs : (planOf s.cfg i).stop s = none)
    (hf : (planOf s.cfg i).frames = f :: fs) :
    drivesOut s.dataOe f.body = true ∧ ∀ g ∈ fs, ∀ oe, drivesOut oe g.body = true := by
  rcases planOf_drivesOut s.cfg i with every | ⟨guard, g, single, drives⟩
  · rw [hf] at every
    exact ⟨every f (.head _) _, fun g hg => every g (.tail _ hg)⟩
  · rw [hf] at single
    cases single
    have driving : s.dataOe = true := by simpa [Plan.stop, stop_busy hs, guard] using hs
    rw [driving]
    exact ⟨drives, by simp⟩

/-- Settles O59: an issue puts the sequencer at the first frame, and the turns of the frames arrive at the
completion. -/
theorem turnsReachExec : Obligations.TurnsReachExec := by
  intro i s t ready run
  obtain ⟨stop, rfl⟩ := exec_next run
  have arrives : ∃ n,
      turns n ((issueOp (commandWord s.cfg.tab i) s).withRun (Running.first i (planOf s.cfg i).frames)) =
        .next (complete (planOf s.cfg i) (framesRun i s)) := by
    unfold framesRun
    cases hf : (planOf s.cfg i).frames with
    | nil =>
      exact turns_frames (r := Running.first i []) (f := { body := [], closes := false, reads := false })
        ⟨rfl, rfl, rfl, rfl, rfl⟩ ready.noHold rfl fun _ hg => nomatch hg
    | cons f fs =>
      obtain ⟨out, outs⟩ := drivesOut_of_stop stop hf
      exact turns_frames (r := Running.first i (f :: fs)) ⟨rfl, rfl, rfl, rfl, rfl⟩ ready.noHold out outs
  obtain ⟨n, arrives⟩ := arrives
  exact ⟨_, n, issue_next.2 ⟨stop, rfl⟩, rfl, arrives⟩

/-! A read against the listed levels of the environment (R51, R63; log 7). -/

section Listed
variable {s : State} {r : List PinAnswer}

theorem pinSampleData_listed {v : Bool} {lv : List Bool} (h : s.pins = .ok :: r) (oe : s.dataOe = false)
    (peer : s.peer = none) (levels : s.levels = v :: lv) :
    pinSampleData s = (State.emit (.smp v) { s with pins := r, levels := lv }, .ok v) := by
  simp only [pinSampleData, ask_listed h]
  rw [dataIn_listed (s := { s with pins := r }) oe peer levels]

/-- A receive cycle with three successful pin actions receives the next listed level into its bit. -/
theorem runBody_rxCycle_listed {v : Bool} {lv : List Bool} (h : s.pins = .ok :: .ok :: .ok :: r)
    (oe : s.dataOe = false) (peer : s.peer = none) (levels : s.levels = v :: lv) (t : BitVec 3) (ms : List Micro) :
    runBody (cycle false .rxBit t ++ ms) s =
      runBody ms (listened [.clk false, .dly, .clk true, .dly, .smp v] 5 t r (orBit s.rxd t.toNat v) lv s.draws s) := by
  have sampled := pinSampleData_listed (s := raised t (.ok :: r) s) (r := r) rfl oe (by simp [raised, heard, peer])
    levels
  have c : cycle false .rxBit t ++ ms = [.clk false t, .hold, .clk true t, .hold] ++ (.rxBit t :: ms) := rfl
  rw [c, runBody_clkCycle h]
  simp only [runBody, Micro.run, sampled]
  simp [State.emit, raised, heard, listened, lastLevel, peer]

theorem byteOf_bits (b : Byte) : byteOf (b.getLsbD 0) (b.getLsbD 1) (b.getLsbD 2) (b.getLsbD 3) (b.getLsbD 4)
    (b.getLsbD 5) (b.getLsbD 6) (b.getLsbD 7) = b := by
  revert b
  decide

/-- A receive run from RXD = 0 with 24 successful pin actions receives the listed byte, its least significant bit
first. -/
theorem runBody_rxRun_listed {b : Byte} {lv : List Bool} (h : s.pins = okPins 24 r) (oe : s.dataOe = false)
    (peer : s.peer = none) (levels : s.levels = bitsOf b ++ lv) (h0 : s.rxd = 0) (ms : List Micro) :
    runBody (engine false .rxBit ++ ms) s = runBody ms (listened (rxTrace b) 40 7 r b lv s.draws s) := by
  have e : engine false .rxBit ++ ms = cycle false .rxBit 0 ++ (cycle false .rxBit 1 ++ (cycle false .rxBit 2 ++
      (cycle false .rxBit 3 ++ (cycle false .rxBit 4 ++ (cycle false .rxBit 5 ++ (cycle false .rxBit 6 ++
      (cycle false .rxBit 7 ++ ms))))))) := by
    simp [engine, cycleIndices]
  have quiet : ∀ es n t q b lv dr, (listened es n t q b lv dr s).peer = none := by simp [listened, heard, peer]
  have listed : s.levels = b.getLsbD 0 :: b.getLsbD 1 :: b.getLsbD 2 :: b.getLsbD 3 :: b.getLsbD 4 :: b.getLsbD 5 ::
    b.getLsbD 6 :: b.getLsbD 7 :: lv := levels
  rw [e, runBody_rxCycle_listed (r := okPins 21 r) h oe peer listed,
    runBody_rxCycle_listed (s := listened _ _ _ (okPins 21 r) _ _ _ s) (r := okPins 18 r) rfl oe (quiet ..) rfl,
    listened_listened,
    runBody_rxCycle_listed (s := listened _ _ _ (okPins 18 r) _ _ _ s) (r := okPins 15 r) rfl oe (quiet ..) rfl,
    listened_listened,
    runBody_rxCycle_listed (s := listened _ _ _ (okPins 15 r) _ _ _ s) (r := okPins 12 r) rfl oe (quiet ..) rfl,
    listened_listened,
    runBody_rxCycle_listed (s := listened _ _ _ (okPins 12 r) _ _ _ s) (r := okPins 9 r) rfl oe (quiet ..) rfl,
    listened_listened,
    runBody_rxCycle_listed (s := listened _ _ _ (okPins 9 r) _ _ _ s) (r := okPins 6 r) rfl oe (quiet ..) rfl,
    listened_listened,
    runBody_rxCycle_listed (s := listened _ _ _ (okPins 6 r) _ _ _ s) (r := okPins 3 r) rfl oe (quiet ..) rfl,
    listened_listened,
    runBody_rxCycle_listed (s := listened _ _ _ (okPins 3 r) _ _ _ s) (r := r) rfl oe (quiet ..) rfl,
    listened_listened]
  have byte := (byteOf_orBits (b.getLsbD 0) (b.getLsbD 1) (b.getLsbD 2) (b.getLsbD 3) (b.getLsbD 4) (b.getLsbD 5)
    (b.getLsbD 6) (b.getLsbD 7)).trans (byteOf_bits b)
  simp only [listened_rxd, h0]
  exact congrArg (fun x => runBody ms (listened (rxTrace b) 40 7 r x lv s.draws s)) byte

/-- The events of a read frame before its receive run (R161). -/
def commandTrace (cmd : Byte) : List Event := [.rst true, .dir .out] ++ txTrace cmd ++ [.dir .inp]

/-- The state of a read frame before its receive run, with RXD zeroed, when the 27 pin actions before it succeeded. -/
def commanded (cmd : Byte) (r : List PinAnswer) (s : State) : State :=
  { s with
    clk := true, dataOut := cmd.getLsbD 7, dataOe := false, rst := true, txd := cmd, rxd := 0, t := 7, ph := true
    evIdx := s.evIdx + 43, dly := 0, pins := r, trace := s.trace ++ commandTrace cmd
    peer := s.peer.map (Peer.hear s.cfg s.dataOut (commandTrace cmd)) }

/-- The body of a read frame is its receive run, once its command byte is sent (R161). -/
theorem runBody_readFrame (cmd : Byte) (h : s.pins = okPins 27 r) :
    runBody (readFrame cmd).body s = runBody (engine false .rxBit) (commanded cmd r s) := by
  have body : (readFrame cmd).body = .rst true :: .dir .out :: .loadTxd cmd ::
      (engine true .txBit ++ (.dir .inp :: .clearRxd :: engine false .rxBit)) := by
    simp [readFrame, transmit, receive]
  rw [body, runBody_open (r := okPins 25 r) h]
  simp only [runBody, Micro.run]
  rw [runBody_txRun (r := okPins 1 r) rfl]
  simp only [runBody, Micro.run, pinSetDataDir]
  rw [drive_ok (r := r) _ rfl]
  refine congrArg (runBody _) ?_
  cases peer : s.peer <;>
    simp [commanded, commandTrace, heard, State.emit, Drive.apply, Drive.event, txTrace, bitsOf, lastLevel,
      Peer.hear, peer]

/-- A read frame in which every pin action succeeds, against listed levels: their byte, and the rest of the list. -/
theorem readFrame_listed {b : Byte} {lv : List Bool} (cmd : Byte) (h : s.pins = okPins 52 r) (peer : s.peer = none)
    (levels : s.levels = bitsOf b ++ lv) : (readFrame cmd).run s =
      ({ s with
          clk := true, dataOut := cmd.getLsbD 7, dataOe := false, rst := false, txd := cmd, rxd := b, t := 7, ph := true
          evIdx := s.evIdx + 84, dly := 0, pins := r, trace := s.trace ++ readTrace cmd b, levels := lv }, none) := by
  have closes : (readFrame cmd).closes = true := rfl
  have received := runBody_rxRun_listed (s := commanded cmd (okPins 25 r) s) (r := okPins 1 r) rfl rfl
    (by simp [commanded, peer]) levels rfl []
  rw [List.append_nil] at received
  simp only [Frame.run, closes, if_true, runBody_readFrame (r := okPins 25 r) cmd h, received, runBody, lower,
    pinDriveRst]
  rw [drive_ok (r := r) _ rfl]
  simp [listened, heard, commanded, commandTrace, State.emit, Drive.apply, Drive.event, readTrace, txTrace, rxTrace,
    bitsOf, lastLevel, peer]

/-- Read frames against listed levels receive the listed bytes in order. -/
theorem runFrames_listed {lv : List Bool} (reads : List (Byte × Byte)) (got : List Byte)
    (h : s.pins = okPins (52 * reads.length) r) (peer : s.peer = none)
    (levels : s.levels = reads.flatMap (fun x => bitsOf x.2) ++ lv) :
    ∃ u, runFrames (reads.map fun x => readFrame x.1) got s = (u, .ok (got ++ reads.map Prod.snd)) ∧
      u.levels = lv := by
  induction reads generalizing got s with
  | nil => exact ⟨s, by simp [runFrames], by simpa using levels⟩
  | cons x reads ih =>
    obtain ⟨cmd, b⟩ := x
    have pins : s.pins = okPins 52 (okPins (52 * reads.length) r) := by
      rw [h, ← okPins_add, List.length_cons, Nat.mul_succ, Nat.add_comm]
    have first := readFrame_listed cmd pins peer
      (by rw [levels, List.flatMap_cons, List.append_assoc])
    obtain ⟨u, rest, left⟩ := ih (s := ((readFrame cmd).run s).1) (got ++ [b]) (by rw [first])
      (by rw [first]; exact peer) (by rw [first])
    refine ⟨u, ?_, left⟩
    rw [first] at rest
    simp only [List.map_cons, runFrames, first]
    rw [List.append_cons]
    exact rest

end Listed

/-- Settles O24: RDTIMER is its seven read frames. -/
theorem readTimerListedLevels : Obligations.ReadTimerListedLevels := by
  intro g s rest lv notBusy pins peer levels
  have frames : (planRdtimer s.cfg).frames = (timerPairs s.cfg g).map fun x => readFrame x.1 := rfl
  obtain ⟨u, ran, left⟩ := runFrames_listed (s := issueOp (commandWord s.cfg.tab .rdtimer) s) (r := rest) (lv := lv)
    (timerPairs s.cfg g) [] pins peer (by simpa [timerPairs] using levels)
  have stop : (planRdtimer s.cfg).stop s = none := by simp [Plan.stop, notBusy, planRdtimer]
  have run : exec .rdtimer s =
      .next (completeOk (planRdtimer s.cfg) ((timerPairs s.cfg g).map Prod.snd) u) := by
    refine perform_next.2 ⟨stop, ?_⟩
    rw [frames, ran]
    rfl
  obtain ⟨keepsRes, -, keepsRfld, -⟩ := (Exec.readFrame .rdtimer s _ run).2.2 rfl
  exact ⟨_, run, rfl, rfl, rfl, by simp [left], keepsRes, keepsRfld⟩

end Sys2Proof.Machine

/-! PROOFS. The family of spec/20_memory.md: the bit order of a run (R51), the two frames (R52 to R55), the loopback (R66), and
which slots of PEER-ECHO an operation can store into (R65). -/

namespace Sys2Proof.Machine

/-! An operation of one frame. -/

section OneFrame
variable {i : Instr} {p : Plan} {f : Frame} {s u : State} {rest : List PinAnswer}

/-- An operation of one frame that ends without a failure completes with Ok. -/
theorem perform_frame (stop : p.stop s = none) (frames : p.frames = [f])
    (run : f.run (issueOp (commandWord s.cfg.tab i) s) = (u, none)) :
    perform i p s = .next (completeOk p (collect f.reads [] u) u) :=
  perform_next.2 ⟨stop, by simp only [frames, runFrames, run, complete]⟩

/-- A completion with Ok overwrites whatever STATUS and SEQ were. -/
theorem completeOk_of_status_seq (p : Plan) (got : List Byte) (u : State) (x : Status) (q : Seq) :
    completeOk p got { u with status := x, seq := q } = completeOk p got u := by
  unfold completeOk deliver
  cases p.result <;> rfl

/-- An operation that is one write frame and names no result register (R160). -/
theorem perform_writeFrame {cmd dat : Byte} (stop : p.stop s = none) (frames : p.frames = [writeFrame cmd dat])
    (result : p.result = .nothing) (pins : s.pins = okPins 51 rest) :
    perform i p s = .next (writeDone (commandWord s.cfg.tab i) cmd dat rest s) := by
  rw [perform_frame stop frames (writeFrame_ok cmd dat pins)]
  simp [completeOk, deliver, result, writeDone, issueOp]

/-- An operation that is one read frame, from the state its frame ends in (R161). -/
theorem perform_readFrame {cmd b : Byte} {lv : List Bool} {dr : Nat} (stop : p.stop s = none)
    (frames : p.frames = [readFrame cmd])
    (run : (readFrame cmd).run (issueOp (commandWord s.cfg.tab i) s) =
      ({ readDone (commandWord s.cfg.tab i) cmd b rest lv dr s with status := Status.issued, seq := s.seq }, none)) :
    perform i p s = .next (completeOk p [b] (readDone (commandWord s.cfg.tab i) cmd b rest lv dr s)) := by
  rw [perform_frame stop frames run, completeOk_of_status_seq]
  rfl

end OneFrame

theorem stop_of_always {p : Plan} {s : State} (guard : p.guard = .always) (notBusy : s.status.busy = false) :
    p.stop s = none := by
  simp [Plan.stop, guard, notBusy]

/-- Whatever drives the line, a read frame delivers some byte. -/
theorem perform_readFrame_some {i : Instr} {p : Plan} {s : State} {rest : List PinAnswer} {cmd : Byte}
    (stop : p.stop s = none) (frames : p.frames = [readFrame cmd]) (pins : s.pins = okPins 52 rest) :
    ∃ b lv dr, perform i p s = .next (completeOk p [b] (readDone (commandWord s.cfg.tab i) cmd b rest lv dr s)) := by
  obtain ⟨b, lv, dr, run⟩ := readFrame_ok (s := issueOp (commandWord s.cfg.tab i) s) cmd pins
  exact ⟨b, lv, dr, perform_readFrame stop frames (by simpa [readDone, issueOp] using run)⟩

/-! The command words (R82). -/

theorem commandWord_wrtxn (tab : CmdTab) (cmd dat : Byte) :
    commandWord tab (.wrtxn cmd dat) = 0x20#8 ++ cmd ++ 0#8 ++ dat :=
  congrArg (fun x : Byte => x ++ cmd ++ 0#8 ++ dat) (show 0x2#4 ++ 0#4 = 0x20#8 from rfl)

theorem commandWord_rdtxn (tab : CmdTab) (cmd : Byte) : commandWord tab (.rdtxn cmd) = 0x30#8 ++ cmd ++ 0#16 :=
  (congrArg (fun x : Byte => x ++ cmd ++ 0#8 ++ 0#8) (show 0x3#4 ++ 0#4 = 0x30#8 from rfl)).trans BitVec.append_assoc

/-- The command word of a wire write code is that of the write transaction it stands for (log 5). -/
theorem commandWord_wrCode (tab : CmdTab) (k : Kind) (dat : Byte) :
    commandWord tab (wrCode k dat) = 0x20#8 ++ (tab.get k).wr ++ 0#8 ++ dat := by
  rw [← commandWord_wrtxn tab]
  cases k <;> rfl

/-- The command word of a wire read code is that of the read transaction it stands for (log 5). -/
theorem commandWord_rdCode (tab : CmdTab) (k : Kind) :
    commandWord tab (rdCode k) = 0x30#8 ++ (tab.get k).rd ++ 0#16 := by
  rw [← commandWord_rdtxn tab]
  cases k <;> rfl

/-! The two transactions, and the wire codes as the transactions they open. -/

/-- Settles O14: the one frame of WRTXN. -/
theorem writeTransactionCompletes : Obligations.WriteTransactionCompletes := by
  intro cmd dat s rest notBusy pins
  rw [← commandWord_wrtxn s.cfg.tab]
  exact perform_writeFrame (i := .wrtxn cmd dat) (p := planWrtxn cmd dat) (stop_of_always rfl notBusy) rfl rfl pins

/-- Settles O15: the one frame of RDTXN, against any driver of the line and against listed levels. -/
theorem readTransactionCompletes : Obligations.ReadTransactionCompletes := by
  intro cmd s rest notBusy pins
  have stop : (planRdtxn cmd).stop s = none := stop_of_always rfl notBusy
  rw [← commandWord_rdtxn s.cfg.tab]
  constructor
  · exact perform_readFrame_some (i := .rdtxn cmd) stop rfl pins
  · intro b lv peer levels
    have run := readFrame_listed (s := issueOp (commandWord s.cfg.tab (.rdtxn cmd)) s) cmd pins peer levels
    exact perform_readFrame (i := .rdtxn cmd) stop rfl (by simpa [readDone, issueOp, peer] using run)

theorem exec_wrCode (k : Kind) (dat : Byte) (s : State) :
    exec (wrCode k dat) s = perform (wrCode k dat) (planWrtxn (s.cfg.tab.get k).wr dat) s := by
  cases k <;> rfl

theorem exec_rdCode (k : Kind) (s : State) :
    exec (rdCode k) s = perform (rdCode k) (planRdtxn (s.cfg.tab.get k).rd) s := by
  cases k <;> rfl

/-- Settles O18: a wire write code has the plan and the command word of WRTXN. -/
theorem writeCodesComplete : Obligations.WriteCodesComplete := by
  intro k dat s rest notBusy pins
  rw [exec_wrCode, perform_writeFrame (stop_of_always rfl notBusy) rfl rfl pins, commandWord_wrCode]

/-- Settles O19: a wire read code has the plan and the command word of RDTXN. -/
theorem readCodesComplete : Obligations.ReadCodesComplete := by
  intro k s rest notBusy pins
  rw [exec_rdCode, ← commandWord_rdCode]
  exact perform_readFrame_some (stop_of_always rfl notBusy) rfl pins

/-! An engine run of which no pin action fails (R140): each cycle adds its five events, and its action is the one thing that
differs between the runs. -/

/-- The events of a cycle whose action has the event `e` (R140, R150). -/
def cycleEvents (pol : Bool) (e : Event) : List Event :=
  if pol then [.clk false, .dly, e, .clk true, .dly] else [.clk false, .dly, .clk true, .dly, e]

theorem lastLevel_cycleEvents (pol d : Bool) (e : Event) : lastLevel d (cycleEvents pol e) = lastLevel d [e] := by
  cases pol <;> cases e <;> simp [cycleEvents, lastLevel]

/-- What the peer hears of a cycle, in the three parts that the clock drives and the action add. -/
theorem hear_cycleEvents_low (cfg : Config) (d : Bool) (e : Event) (p : Peer) : p.hear cfg d (cycleEvents true e) =
    ((p.hear cfg d [.clk false, .dly]).hear cfg d [e]).hear cfg (lastLevel d [e]) [.clk true, .dly] := by
  have parts : cycleEvents true e = [.clk false, .dly] ++ ([e] ++ [.clk true, .dly]) := rfl
  simp only [parts, hear_append, lastLevel]

/-- The state behind a clock drive of cycle `t` and its hold, with the answers `ps` left. -/
def clocked (v : Bool) (t : BitVec 3) (ps : List PinAnswer) (s : State) : State :=
  { s with
    clk := v, t := t, ph := v, dly := 0, evIdx := s.evIdx + 2, pins := ps, trace := s.trace ++ [.clk v, .dly]
    peer := s.peer.map (Peer.hear s.cfg s.dataOut [.clk v, .dly]) }

/-- The state of a cycle just before its action, with the answers `ps` left: behind the low phase's hold if the action stands
in the low phase, else behind the high phase's. -/
def beforeAction (pol : Bool) (t : BitVec 3) (ps : List PinAnswer) (s : State) : State :=
  if pol then clocked false t ps s else raised t ps s

/-- What an action with the event `e` leaves: a drive of DATA_OUT or a sample (R142, R143). -/
def acted (e : Event) (ps : List PinAnswer) (b : Byte) (lv : List Bool) (dr : Nat) (s : State) : State :=
  { s with
    dataOut := lastLevel s.dataOut [e], rxd := b, evIdx := s.evIdx + 1, pins := ps, trace := s.trace ++ [e]
    levels := lv, draws := dr, peer := s.peer.map (Peer.hear s.cfg s.dataOut [e]) }

/-- The answers the oracle still lists in a cycle behind its action. -/
def answersBehind (pol : Bool) (r : List PinAnswer) : List PinAnswer := okPins (if pol then 1 else 0) r

theorem runBody_clkHold {s : State} {r : List PinAnswer} (h : s.pins = .ok :: r) (v : Bool) (t : BitVec 3)
    (ms : List Micro) : runBody ([.clk v t, .hold] ++ ms) s = runBody ms (clocked v t r s) := by
  cases hp : s.peer <;>
    simp [runBody, Micro.run, pinDriveClk, drive, ask, h, State.emit, Drive.apply, Drive.event, waitHold, clocked,
      Peer.hear, hp]

/-- One cycle, given what its action does where it stands. -/
theorem runBody_cycle {pol : Bool} {act : BitVec 3 → Micro} {t : BitVec 3} {s : State} {r : List PinAnswer}
    {e : Event} {b : Byte} {lv : List Bool} {dr : Nat} (h : s.pins = okPins 3 r)
    (acts : (act t).run (beforeAction pol t (.ok :: answersBehind pol r) s) =
      (acted e (answersBehind pol r) b lv dr (beforeAction pol t (.ok :: answersBehind pol r) s), none))
    (ms : List Micro) :
    runBody (cycle pol act t ++ ms) s = runBody ms (listened (cycleEvents pol e) 5 t r b lv dr s) := by
  cases pol with
  | false =>
    have shape : cycle false act t ++ ms = [.clk false t, .hold, .clk true t, .hold] ++ (act t :: ms) := by simp [cycle]
    have acts' : (act t).run (raised t (.ok :: r) s) = (acted e r b lv dr (raised t (.ok :: r) s), none) := acts
    rw [shape, runBody_clkCycle (r := .ok :: r) h]
    simp only [runBody, acts']
    cases hp : s.peer <;>
      simp [acted, raised, listened, heard, cycleEvents, ← hear_append, ← lastLevel_append, hp]
  | true =>
    have acts' : (act t).run (beforeAction true t (.ok :: .ok :: r) s) =
      (acted e (.ok :: r) b lv dr (beforeAction true t (.ok :: .ok :: r) s), none) := acts
    have shape : cycle true act t ++ ms = [.clk false t, .hold] ++ (act t :: ([.clk true t, .hold] ++ ms)) := rfl
    rw [shape, runBody_clkHold (r := .ok :: .ok :: r) h]
    have low : clocked false t (.ok :: .ok :: r) s = beforeAction true t (.ok :: .ok :: r) s := rfl
    simp only [runBody, low, acts']
    rw [runBody_clkHold (r := r) rfl]
    cases hp : s.peer <;>
      simp [acted, beforeAction, listened, heard, clocked, hear_cycleEvents_low, lastLevel_cycleEvents, hp] <;>
      rfl

/-- Where `P` holds of the cycles left, the action of the next cycle `t` succeeds with the event `e t` and makes `next t` of RXD,
and `P` holds of the cycles behind it. -/
def ActsAs (pol : Bool) (act : BitVec 3 → Micro) (e : BitVec 3 → Event) (next : BitVec 3 → Byte → Byte)
    (P : List (BitVec 3) → State → Prop) : Prop :=
  ∀ (t : BitVec 3) (ts : List (BitVec 3)) (u : State) (r : List PinAnswer), P (t :: ts) u →
    ∃ lv dr, (act t).run (beforeAction pol t (.ok :: answersBehind pol r) u) =
        (acted (e t) (answersBehind pol r) (next t u.rxd) lv dr (beforeAction pol t (.ok :: answersBehind pol r) u),
          none) ∧
      P ts (listened (cycleEvents pol (e t)) 5 t r (next t u.rxd) lv dr u)

section Engine
variable {pol : Bool} {act : BitVec 3 → Micro} {e : BitVec 3 → Event} {next : BitVec 3 → Byte → Byte}
  {P : List (BitVec 3) → State → Prop} {s : State} {r : List PinAnswer}

/-- Cycles one after another, by induction on their list. -/
theorem runBody_cycles (acts : ActsAs pol act e next P) (t : BitVec 3) (ts : List (BitVec 3))
    (h : s.pins = okPins (3 * (ts.length + 1)) r) (hP : P (t :: ts) s) (ms : List Micro) :
    ∃ lv dr last, runBody ((t :: ts).flatMap (cycle pol act) ++ ms) s = runBody ms last ∧ P [] last ∧
      last = listened ((t :: ts).flatMap fun t => cycleEvents pol (e t)) (5 * (ts.length + 1))
        ((t :: ts).getLast (by simp)) r ((t :: ts).foldl (fun x t => next t x) s.rxd) lv dr s := by
  induction ts generalizing t s with
  | nil =>
    obtain ⟨lv, dr, acted, holds⟩ := acts t [] s r hP
    exact ⟨lv, dr, _, by simpa using runBody_cycle h acted ms, holds, by simp⟩
  | cons t' ts ih =>
    obtain ⟨lv, dr, acted, holds⟩ := acts t (t' :: ts) s (okPins (3 * (ts.length + 1)) r) hP
    have pins : s.pins = okPins 3 (okPins (3 * (ts.length + 1)) r) := by
      rw [h, ← okPins_add, List.length_cons]
      congr 1
      omega
    obtain ⟨lv', dr', last, run, done, rfl⟩ := ih t' rfl holds
    refine ⟨lv', dr', _, ?_, done, ?_⟩
    · rw [List.flatMap_cons, List.append_assoc, runBody_cycle pins acted, run]
    · rw [listened_listened]
      simp [Nat.mul_add, Nat.add_comm]

/-- A whole run, eight cycles (R140). -/
theorem runBody_engine (acts : ActsAs pol act e next P) (h : s.pins = okPins 24 r) (hP : P cycleIndices s)
    (ms : List Micro) :
    ∃ lv dr last, runBody (engine pol act ++ ms) s = runBody ms last ∧ P [] last ∧
      last = listened (cycleIndices.flatMap fun t => cycleEvents pol (e t)) 40 7 r
        (cycleIndices.foldl (fun x t => next t x) s.rxd) lv dr s :=
  runBody_cycles acts 0 [1, 2, 3, 4, 5, 6, 7] h hP ms

end Engine

/-! A transmit run (R142, R146, R147). -/

/-- The trace of a transmit run, by polarity (R150). -/
def transmitTrace (pol : Bool) (src : Byte) : List Event := if pol then txTrace src else txTraceHigh src

theorem transmitTrace_eq (pol : Bool) (src : Byte) :
    (cycleIndices.flatMap fun t => cycleEvents pol (.dat (bitAt src t))) = transmitTrace pol src := by
  cases pol <;> rfl

theorem lastLevel_transmitTrace (pol d : Bool) (src : Byte) : lastLevel d (transmitTrace pol src) = src.getLsbD 7 := by
  cases pol <;> rfl

/-- A drive of the data line takes nothing from the environment (R142). -/
theorem actsAs_txBit (pol : Bool) (src : Byte) (lv : List Bool) (dr : Nat) :
    ActsAs pol .txBit (fun t => .dat (bitAt src t)) (fun _ x => x)
      (fun _ u => u.txd = src ∧ u.levels = lv ∧ u.draws = dr) := by
  rintro t ts u r ⟨rfl, rfl, rfl⟩
  refine ⟨u.levels, u.draws, ?_, rfl, rfl, rfl⟩
  cases pol <;> cases hp : u.peer <;>
    simp [Micro.run, pinDriveData, beforeAction, acted, clocked, raised, heard, drive, ask, State.emit, Drive.apply,
      Drive.event, hp, lastLevel, Peer.hear, Peer.react]

/-- A transmit run drives the eight bits of TXD (R51, R145). -/
theorem runBody_transmit {s : State} {r : List PinAnswer} (pol : Bool) (h : s.pins = okPins 24 r) :
    runBody (engine pol .txBit) s = (heard (transmitTrace pol s.txd) 40 7 r s, none) := by
  obtain ⟨lv, dr, last, run, ⟨-, levels, draws⟩, rfl⟩ :=
    runBody_engine (actsAs_txBit pol s.txd s.levels s.draws) h ⟨rfl, rfl, rfl⟩ []
  obtain rfl : lv = s.levels := levels
  obtain rfl : dr = s.draws := draws
  rw [List.append_nil, transmitTrace_eq] at run
  exact run

theorem perform_transmit {i : Instr} {p : Plan} {src : Byte} {s : State} {rest : List PinAnswer} (pol : Bool)
    (stop : p.stop s = none) (frames : p.frames = [bareFrame (.loadTxd src :: engine pol .txBit) false])
    (result : p.result = .nothing) (pins : s.pins = okPins 24 rest) :
    perform i p s = .next (txDone (commandWord s.cfg.tab i) src (transmitTrace pol src) rest s) := by
  have run := runBody_transmit (s := { issueOp (commandWord s.cfg.tab i) s with txd := src }) pol pins
  rw [perform_frame stop frames run]
  simp [completeOk, deliver, result, txDone, heard, lastLevel_transmitTrace, issueOp]

theorem commandWord_txbyte (tab : CmdTab) (src : Byte) : commandWord tab (.txbyte src) = 0x11#8 ++ 0#16 ++ src :=
  congrArg (fun x : BitVec 24 => x ++ src) (show 0x1#4 ++ 0x1#4 ++ 0#8 ++ 0#8 = 0x11#8 ++ 0#16 from rfl)

theorem commandWord_txbyteH (tab : CmdTab) (src : Byte) : commandWord tab (.txbyteH src) = 0x10#8 ++ 0#16 ++ src :=
  congrArg (fun x : BitVec 24 => x ++ src) (show 0x1#4 ++ 0x0#4 ++ 0#8 ++ 0#8 = 0x10#8 ++ 0#16 from rfl)

/-- Settles O10: the two transmit runs differ in the polarity alone. -/
theorem transmitCompletes : Obligations.TransmitCompletes := by
  intro src s rest notBusy out pins
  rw [← commandWord_txbyte s.cfg.tab, ← commandWord_txbyteH s.cfg.tab]
  have stop : (planTxbyte src).stop s = none ∧ (planTxbyteH src).stop s = none := by
    simp [Plan.stop, notBusy, planTxbyte, planTxbyteH, out]
  exact ⟨perform_transmit (i := .txbyte src) true stop.1 rfl rfl pins,
    perform_transmit (i := .txbyteH src) false stop.2 rfl rfl pins⟩

/-! A receive run (R143, R148, R149). -/

/-- The trace of a receive run, by polarity (R150). -/
def receiveTrace (pol : Bool) (b : Byte) : List Event := if pol then rxTraceLow b else rxTrace b

theorem receiveTrace_eq (pol : Bool) (b : Byte) :
    (cycleIndices.flatMap fun t => cycleEvents pol (.smp (bitAt b t))) = receiveTrace pol b := by
  cases pol <;> rfl

theorem lastLevel_receiveTrace (pol d : Bool) (b : Byte) : lastLevel d (receiveTrace pol b) = d := by
  cases pol <;> rfl

/-- The eight bits of a byte, each into its place, make the byte (R51). -/
theorem orBits_eq (b : Byte) : cycleIndices.foldl (fun x t => orBit x t.toNat (bitAt b t)) 0 = b := by
  revert b
  decide

/-- Where `P` holds of the cycles left, the sample of the next cycle shows its bit of the byte `b`, and `P` holds of the cycles
behind it. -/
def Shows (pol : Bool) (b : Byte) (P : List (BitVec 3) → State → Prop) : Prop :=
  ∀ (t : BitVec 3) (ts : List (BitVec 3)) (u : State) (q r : List PinAnswer), P (t :: ts) u →
    ∃ lv dr, dataIn (beforeAction pol t q u) =
        (bitAt b t, { beforeAction pol t q u with levels := lv, draws := dr }) ∧
      P ts (listened (cycleEvents pol (.smp (bitAt b t))) 5 t r (orBit u.rxd t.toNat (bitAt b t)) lv dr u)

section Receive
variable {pol : Bool} {b : Byte} {P : List (BitVec 3) → State → Prop} {s : State} {r : List PinAnswer}

/-- A sample ORs the level it shows into the bit of its cycle (R143). -/
theorem actsAs_rxBit (shows : Shows pol b P) :
    ActsAs pol .rxBit (fun t => .smp (bitAt b t)) (fun t x => orBit x t.toNat (bitAt b t)) P := by
  intro t ts u r holds
  obtain ⟨lv, dr, level, after⟩ := shows t ts u (answersBehind pol r) r holds
  have asked : ask (beforeAction pol t (.ok :: answersBehind pol r) u) = (.ok, beforeAction pol t (answersBehind pol r) u) := by
    cases pol <;> rfl
  refine ⟨lv, dr, ?_, after⟩
  simp only [Micro.run, pinSampleData, asked, level]
  cases pol <;> rfl

/-- A receive run from RXD = 0 receives the byte that its samples show. -/
theorem runBody_receive (shows : Shows pol b P) (h : s.pins = okPins 24 r) (h0 : s.rxd = 0) (hP : P cycleIndices s)
    (ms : List Micro) :
    ∃ lv dr, runBody (engine pol .rxBit ++ ms) s = runBody ms (listened (receiveTrace pol b) 40 7 r b lv dr s) ∧
      P [] (listened (receiveTrace pol b) 40 7 r b lv dr s) := by
  obtain ⟨lv, dr, last, run, done, rfl⟩ := runBody_engine (actsAs_rxBit shows) h hP ms
  rw [h0, orBits_eq, receiveTrace_eq] at run done
  exact ⟨lv, dr, run, done⟩

/-- The state in which the cycles of a receive run on its own begin: issued, with RXD zeroed (R148). -/
def receiving (w : Word) (s : State) : State := { issueOp w s with rxd := 0 }

theorem perform_receive {i : Instr} {p : Plan} (stop : p.stop s = none)
    (frames : p.frames = [bareFrame (.clearRxd :: engine pol .rxBit) true]) (result : p.result = .res)
    (pins : s.pins = okPins 24 r) (shows : Shows pol b P) (hP : P cycleIndices (receiving (commandWord s.cfg.tab i) s)) :
    ∃ lv dr, perform i p s = .next (rxDone (commandWord s.cfg.tab i) b (receiveTrace pol b) r lv dr s) ∧
      P [] (listened (receiveTrace pol b) 40 7 r b lv dr (receiving (commandWord s.cfg.tab i) s)) := by
  obtain ⟨lv, dr, run, done⟩ := runBody_receive shows (s := receiving (commandWord s.cfg.tab i) s) pins rfl hP []
  rw [List.append_nil] at run
  refine ⟨lv, dr, ?_, done⟩
  rw [perform_frame stop frames run]
  simp [completeOk, deliver, result, rxDone, listened, heard, lastLevel_receiveTrace, issueOp, receiving]

end Receive

/-- No peer model, a released line, and the levels of the cycles left are listed, then `lv` (R63; log 7). -/
def Listing (b : Byte) (lv : List Bool) (dr : Nat) (ts : List (BitVec 3)) (u : State) : Prop :=
  u.dataOe = false ∧ u.peer = none ∧ u.levels = ts.map (bitAt b) ++ lv ∧ u.draws = dr

theorem shows_listing (pol : Bool) (b : Byte) (lv : List Bool) (dr : Nat) : Shows pol b (Listing b lv dr) := by
  rintro t ts u q r ⟨released, peer, levels, rfl⟩
  refine ⟨ts.map (bitAt b) ++ lv, u.draws, ?_, released, ?_, rfl, rfl⟩
  · cases pol
    all_goals exact dataIn_listed released (by simp [beforeAction, clocked, raised, heard, peer]) levels
  · simp [listened, heard, peer]

theorem commandWord_rxbyte (tab : CmdTab) : commandWord tab .rxbyte = 0x12000000 :=
  show (Parts.mk 0x1 0x2 0 0 0).toWord = 0x12000000 by decide

theorem commandWord_rxbyteL (tab : CmdTab) : commandWord tab .rxbyteL = 0x13000000 :=
  show (Parts.mk 0x1 0x3 0 0 0).toWord = 0x13000000 by decide

/-- Settles O12: the list holds the bits in the order of the cycles. -/
theorem receiveListedLevels : Obligations.ReceiveListedLevels := by
  intro b s rest lv notBusy pins released peer levels
  have received : ∀ (i : Instr) (p : Plan) (pol : Bool), p.stop s = none →
      p.frames = [bareFrame (.clearRxd :: engine pol .rxBit) true] → p.result = .res →
      perform i p s = .next (rxDone (commandWord s.cfg.tab i) b (receiveTrace pol b) rest lv s.draws s) := by
    intro i p pol stop frames result
    obtain ⟨lv', dr, run, -, -, left, drawn⟩ := perform_receive (i := i) stop frames result pins
      (shows_listing pol b lv s.draws) ⟨released, peer, levels, rfl⟩
    obtain rfl : lv' = lv := left
    obtain rfl : dr = s.draws := drawn
    exact run
  rw [← commandWord_rxbyte s.cfg.tab, ← commandWord_rxbyteL s.cfg.tab]
  exact ⟨received .rxbyte planRxbyte false (stop_of_always rfl notBusy) rfl rfl,
    received .rxbyteL planRxbyteL true (stop_of_always rfl notBusy) rfl rfl⟩

/-- The block drives the level `d`, and the listed levels stay (R64). -/
def Driving (d : Bool) (lv : List Bool) (_ts : List (BitVec 3)) (u : State) : Prop :=
  u.dataOe = true ∧ u.dataOut = d ∧ u.levels = lv

theorem bitAt_allSame (d : Bool) (t : BitVec 3) : bitAt (if d then 0xFF else 0x00) t = d := by
  revert d t
  decide

theorem shows_driving (pol d : Bool) (lv : List Bool) : Shows pol (if d then 0xFF else 0x00) (Driving d lv) := by
  rintro t ts u q r ⟨out, rfl, rfl⟩
  refine ⟨u.levels, u.draws, ?_, out, ?_, rfl⟩
  · rw [bitAt_allSame]
    cases pol
    all_goals exact dataIn_driving out
  · exact lastLevel_cycleEvents pol _ _

/-- Settles O13: each sample is DATA_OUT, which no step of a receive run changes. -/
theorem receiveWhileDriving : Obligations.ReceiveWhileDriving := by
  intro s rest notBusy pins out
  have received : ∀ (i : Instr) (p : Plan) (pol : Bool), p.stop s = none →
      p.frames = [bareFrame (.clearRxd :: engine pol .rxBit) true] → p.result = .res →
      ∃ t, perform i p s = .next t ∧ t.res = (if s.dataOut then 0xFF else 0x00) ∧ t.levels = s.levels ∧
        t.trace = s.trace ++ receiveTrace pol (if s.dataOut then 0xFF else 0x00) := by
    intro i p pol stop frames result
    obtain ⟨lv, dr, run, -, -, left⟩ := perform_receive (i := i) stop frames result pins
      (shows_driving pol s.dataOut s.levels) ⟨out, rfl, rfl⟩
    exact ⟨_, run, rfl, left, rfl⟩
  exact ⟨received .rxbyte planRxbyte false (stop_of_always rfl notBusy) rfl rfl,
    received .rxbyteL planRxbyteL true (stop_of_always rfl notBusy) rfl rfl⟩

/-! What PEER-ECHO makes of the bytes the block sends (R65). -/

/-- Eight bits, each latched into its place, make the byte (R65). -/
theorem putBits_eq (b : Byte) :
    putBit (putBit (putBit (putBit (putBit (putBit (putBit (putBit 0#8 0 b[0]) 1 b[1]) 2 b[2]) 3 b[3]) 4 b[4]) 5 b[5]) 6 b[6])
      7 b[7] = b := by
  revert b
  decide

/-- A transmit cycle in an open frame that selects no slot for reading: the fall puts out nothing, and the rise takes the bit. -/
theorem hear_txCycle {p : Peer} (act : p.act = true) (noRead : ∀ sl, p.sel ≠ .rd sl) (cfg : Config) (d v : Bool)
    (es : List Event) : p.hear cfg d (.clk false :: .dly :: .dat v :: .clk true :: .dly :: es) =
      Peer.hear cfg v es { Peer.rise cfg v { p with pclk := false } with pclk := true } := by
  have fall : p.fall = p := by
    unfold Peer.fall
    split
    · next sl e => exact absurd e (noRead sl)
    · rfl
    · rfl
  simp [Peer.hear, Peer.react, act, fall]

theorem hear_nil (cfg : Config) (d : Bool) (p : Peer) : p.hear cfg d [] = p := rfl

/-- PEER-ECHO in an open frame whose command byte it has taken. -/
def Peer.addressed (cfg : Config) (cmd : Byte) (p : Peer) : Peer :=
  { p with act := true, pclk := true, n := 8, m := 0, csh := cmd, dsh := 0, sel := lookup cfg cmd, out := none }

/-- The first byte of a frame selects what the lookup gives for it. -/
theorem hear_command (cfg : Config) (d : Bool) (cmd : Byte) (p : Peer) :
    p.hear cfg d ([.rst true, .dir .out] ++ txTrace cmd) = p.addressed cfg cmd := by
  have opened : p.hear cfg d ([.rst true, .dir .out] ++ txTrace cmd) = Peer.hear cfg d (txTrace cmd)
      { p with act := true, n := 0, m := 0, csh := 0, dsh := 0, sel := .none, out := none } := rfl
  rw [opened]
  simp [txTrace, bitsOf, hear_txCycle, Peer.rise, putBits_eq, hear_nil, Peer.addressed]

/-- The second byte of a write frame is stored in the slot selected. -/
theorem hear_data {cfg : Config} {cmd : Byte} {sl : Slot} (h : lookup cfg cmd = .wr sl) (d : Bool) (dat : Byte) (p : Peer) :
    (p.addressed cfg cmd).hear cfg d (txTrace dat) =
      { p.addressed cfg cmd with n := 16, dsh := dat, mem := p.mem.write sl.addr dat } := by
  simp [txTrace, bitsOf, hear_txCycle, Peer.rise, putBits_eq, hear_nil, Peer.addressed, h]

/-! What PEER-ECHO hears of a step, whatever the oracle answers. -/

/-- PEER-ECHO heard the events `es` between two states, and DATA_OUT moved with them. -/
structure Heard (es : List Event) (s u : State) : Prop where
  peer : u.peer = s.peer.map (Peer.hear s.cfg s.dataOut es)
  level : u.dataOut = lastLevel s.dataOut es

theorem Heard.nil {s u : State} (peer : u.peer = s.peer) (level : u.dataOut = s.dataOut) : Heard [] s u := by
  refine ⟨?_, level⟩
  rw [peer]
  cases s.peer <;> rfl

theorem Heard.trans {es fs : List Event} {s u w : State} (a : Heard es s u) (cfg : u.cfg = s.cfg) (b : Heard fs u w) :
    Heard (es ++ fs) s w := by
  refine ⟨?_, by rw [b.level, a.level, lastLevel_append]⟩
  rw [b.peer, a.peer, cfg, a.level]
  cases s.peer <;> simp [hear_append]

/-- A drive adds its event, or fails, and to a failed event the peer does not react (log 18). -/
theorem drive_heard (d : Drive) (s : State) :
    Heard [d.event] s (drive d s).1 ∨ (drive d s).2 ≠ none ∧ (drive d s).1.peer = s.peer := by
  obtain ⟨ps, n, asked⟩ := ask_state s
  unfold drive
  split
  · next u e =>
    obtain rfl : u = { s with pins := ps, draws := n } := by rw [← asked, e]
    exact .inl (by cases d <;> exact ⟨rfl, rfl⟩)
  · next c took u e =>
    obtain rfl : u = { s with pins := ps, draws := n } := by rw [← asked, e]
    refine .inr ⟨nofun, ?_⟩
    cases took <;> cases s.peer <;> simp [Peer.react]

/-- A sample is nothing to the peer (R65). -/
theorem pinSampleData_heard (s : State) : Heard [] s (pinSampleData s).1 := by
  obtain ⟨ps, n, asked⟩ := ask_state s
  unfold pinSampleData
  split
  · next u e =>
    obtain rfl : u = { s with pins := ps, draws := n } := by rw [← asked, e]
    obtain ⟨v, lv, dr, e'⟩ := dataIn_spec { s with pins := ps, draws := n }
    rw [e']
    exact .nil (by cases s.peer <;> simp [Peer.react]) rfl
  · next u e =>
    obtain rfl : u = { s with pins := ps, draws := n } := by rw [← asked, e]
    exact .nil (by cases s.peer <;> simp [Peer.react]) rfl

/-- The event of a step that the peer hears, with `x` in TXD: a load has none, and a sample is nothing to it. -/
def Micro.event (x : Byte) : Micro → List Event
  | .clk v _ => [.clk v]
  | .hold => [.dly]
  | .txBit t => [.dat (bitAt x t)]
  | .rst v => [.rst v]
  | .dir d => [.dir d]
  | .loadTxd _ => []
  | .clearRxd => []
  | .rxBit _ => []

/-- A step is heard, or its pin action failed and the peer is as it was. -/
theorem Micro.run_heard (m : Micro) (s : State) :
    Heard (m.event s.txd) s (m.run s).1 ∨ (m.run s).2 ≠ none ∧ (m.run s).1.peer = s.peer := by
  cases m with
  | loadTxd b => exact .inl (.nil rfl rfl)
  | clearRxd => exact .inl (.nil rfl rfl)
  | clk v t =>
    have driven := drive_heard (.clk v) { s with t := t }
    simp only [Micro.run, pinDriveClk]
    split <;> next e =>
      rw [e] at driven
      exact driven.imp (fun heard => ⟨heard.peer, heard.level⟩) id
  | hold => exact .inl ⟨rfl, rfl⟩
  | txBit t => exact drive_heard (.data (bitAt s.txd t)) s
  | rxBit t =>
    have sampled := pinSampleData_heard s
    refine .inl ?_
    simp only [Micro.run]
    split
    · next e => rw [e] at sampled; exact ⟨sampled.peer, sampled.level⟩
    · next e => rw [e] at sampled; exact sampled
  | rst v => exact drive_heard (.rst v) s
  | dir d => exact drive_heard (.dir d) s

/-- Steps that load nothing and all succeed are heard one after another. -/
theorem runBody_heard {ms : List Micro} {s u : State} (noLoad : ms.any (fun m => m.writes .txd) = false)
    (run : runBody ms s = (u, none)) : Heard (ms.flatMap (Micro.event s.txd)) s u := by
  induction ms generalizing s with
  | nil => cases run; exact .nil rfl rfl
  | cons m ms ih =>
    obtain ⟨first, others⟩ : m.writes .txd = false ∧ ms.any (fun m => m.writes .txd) = false := by simpa using noLoad
    have keeps := Keeps.micro m s
    have txd : (m.run s).1.txd = s.txd := Reg.Same.micro first s
    have heard := m.run_heard s
    simp only [runBody] at run
    split at run
    · next w e =>
      rw [e] at keeps txd heard
      have tail := ih others run
      rw [show w.txd = s.txd from txd] at tail
      exact (heard.resolve_right (fun h => h.1 rfl)).trans keeps.cfg tail
    · cases run

/-! Which slots a run can store into (R65): the sixteenth rise of a frame stores, and its first eight select the slot. -/

/-- With `c` clock rises to come and no reset edge among them, the peer stores nothing at the address `a`: the sixteenth rise is
not among them, or the command byte is taken and selects no write of that slot. -/
def Peer.Spares (a c : Nat) (p : Peer) : Prop := p.n + c < 16 ∨ 8 ≤ p.n ∧ ∀ sl, p.sel = .wr sl → a ≠ sl.addr

theorem Peer.Spares.fewer {a c k : Nat} {p : Peer} (h : p.Spares a (k + c)) : p.Spares a c := h.imp (by omega) id

theorem Peer.Spares.rise {a c : Nat} {p : Peer} (h : p.Spares a (1 + c)) (cfg : Config) (d : Bool) :
    (p.rise cfg d).Spares a c ∧ (p.rise cfg d).mem.read a = p.mem.read a := by
  unfold Peer.rise
  split
  · next command =>
    have early : p.n + 1 + c < 16 := by rcases h with h | h <;> omega
    split <;> exact ⟨.inl early, rfl⟩
  · next data =>
    have counted : p.n + 1 + c < 16 ∨ 8 ≤ p.n + 1 ∧ ∀ sl, p.sel = .wr sl → a ≠ sl.addr := by
      rcases h with early | ⟨taken, other⟩
      · exact .inl (by omega)
      · exact .inr ⟨by omega, other⟩
    split
    · next sl sel =>
      split
      · split
        · next last =>
          obtain ⟨-, other⟩ := h.resolve_left (by omega)
          exact ⟨counted, Memory.read_write_other _ _ (other sl sel)⟩
        · exact ⟨counted, rfl⟩
      · exact ⟨h.fewer, rfl⟩
    · exact ⟨h.fewer, rfl⟩
    · exact ⟨h.fewer, rfl⟩

/-- A clock fall counts no rise, selects nothing and stores nothing. -/
theorem Peer.fall_frame (p : Peer) : p.fall.n = p.n ∧ p.fall.sel = p.sel ∧ p.fall.mem = p.mem := by
  unfold Peer.fall
  repeat' split
  all_goals exact ⟨rfl, rfl, rfl⟩

/-- The clock rises that a step makes. -/
def Micro.rises : Micro → Nat
  | .clk true _ => 1
  | _ => 0

/-- The clock rises of a list of steps. -/
def rises (ms : List Micro) : Nat := (ms.map Micro.rises).sum

theorem Peer.Spares.hear_event {a c : Nat} {p : Peer} {m : Micro} (h : p.Spares a (m.rises + c))
    (noRst : m.writes .rst = false) (cfg : Config) (d : Bool) (x : Byte) :
    (p.hear cfg d (m.event x)).Spares a c ∧ (p.hear cfg d (m.event x)).mem.read a = p.mem.read a := by
  cases m with
  | clk v t =>
    cases v with
    | true =>
      have risen := Peer.Spares.rise (c := c) h cfg d
      simp only [Micro.event, Peer.hear, Peer.react]
      split
      · exact risen
      · exact ⟨h.fewer, rfl⟩
    | false =>
      obtain ⟨n, sel, mem⟩ := p.fall_frame
      simp only [Micro.event, Peer.hear, Peer.react]
      split
      · exact ⟨by simpa [Peer.Spares, n, sel] using h.fewer, by rw [mem]⟩
      · exact ⟨h.fewer, rfl⟩
  | rst v => cases noRst
  | loadTxd | clearRxd | hold | txBit | rxBit | dir => exact ⟨h.fewer, rfl⟩

/-- The peer of a state, if there is one, stores nothing at `a` within `c` rises. -/
def State.Spares (a c : Nat) (s : State) : Prop := ∀ p, s.peer = some p → p.Spares a c

theorem State.Spares.micro {a c : Nat} {s : State} {m : Micro} (h : s.Spares a (m.rises + c))
    (noRst : m.writes .rst = false) : (m.run s).1.Spares a c ∧ peerByte (m.run s).1 a = peerByte s a := by
  obtain heard | ⟨-, same⟩ := m.run_heard s
  · cases hp : s.peer with
    | none => simp [State.Spares, peerByte, heard.peer, hp]
    | some p => simpa [State.Spares, peerByte, heard.peer, hp] using (h p hp).hear_event noRst s.cfg s.dataOut s.txd
  · exact ⟨fun p hp => (h p (same ▸ hp)).fewer, by simp [peerByte, same]⟩

/-- Steps with no reset edge store nothing at an address that the peer spares for as many rises as they make. -/
theorem runBody_spares {a : Nat} {ms : List Micro} {s : State} (h : s.Spares a (rises ms))
    (noRst : ms.any (fun m => m.writes .rst) = false) : peerByte (runBody ms s).1 a = peerByte s a := by
  induction ms generalizing s with
  | nil => rfl
  | cons m ms ih =>
    obtain ⟨first, others⟩ : m.writes .rst = false ∧ ms.any (fun m => m.writes .rst) = false := by simpa using noRst
    obtain ⟨spares, same⟩ := State.Spares.micro (c := rises ms) h first
    simp only [runBody]
    split
    · next e =>
      rw [e] at spares same
      exact (ih spares others).trans same
    · next e =>
      rw [e] at same
      exact same

/-- Issue and completion leave the peer's memory to the frames. -/
theorem exec_peerByte {i : Instr} {s t : State} (h : exec i s = .next t) (a : Nat) :
    peerByte t a = peerByte (framesRun i s).1 a := by
  obtain ⟨-, rfl⟩ := exec_next h
  exact Reg.Same.complete (q := .memory) (by cases (planOf s.cfg i).result <;> rfl) _ a

/-- A run on its own makes eight rises and no reset edge. -/
theorem planOf_bareRun {i : Instr} (h : drivesBare i ∨ i = .rxbyte ∨ i = .rxbyteL) (cfg : Config) :
    ∃ body reads, (planOf cfg i).frames = [bareFrame body reads] ∧ rises body = 8 ∧
      body.any (fun m => m.writes .rst) = false := by
  rcases h with ⟨b, rfl | rfl⟩ | rfl | rfl
  all_goals exact ⟨_, _, rfl, rfl, rfl⟩

/-- Settles O43: eight rises reach the sixteenth of a frame only if its command byte was taken before them. -/
theorem runMemoryFrame : Obligations.RunMemoryFrame := by
  intro i p s t a hi h hp noStore
  obtain ⟨body, reads, frames, eight, noRst⟩ := planOf_bareRun hi s.cfg
  have spares : (issueOp (commandWord s.cfg.tab i) s).Spares a (rises body) := by
    intro q hq
    obtain rfl : p = q := Option.some.inj (hp.symm.trans hq)
    by_cases taken : 8 ≤ p.n
    · exact .inr ⟨taken, noStore⟩
    · exact .inl (by omega)
  rw [exec_peerByte h, framesRun, frames, runFrames_bare, runBody_spares spares noRst]
  rfl

/-- The frame sends the command byte `cmd` first, and behind it there is no reset edge but its lowering (R160, R161). -/
def Frame.Sends (cmd : Byte) (f : Frame) : Prop :=
  ∃ ms, f.body = [.rst true, .dir .out] ++ .loadTxd cmd :: (engine true .txBit ++ ms) ∧
    ms.any (fun m => m.writes .rst) = false

theorem writeFrame_sends (cmd dat : Byte) : (writeFrame cmd dat).Sends cmd :=
  ⟨transmit dat, by simp [writeFrame, transmit], rfl⟩

theorem readFrame_sends (cmd : Byte) : (readFrame cmd).Sends cmd :=
  ⟨.dir .inp :: receive, by simp [readFrame, transmit], rfl⟩

/-- Two lists of steps one after the other: the second counts only where the first succeeded. -/
theorem runBody_append_peerByte {a : Nat} {ms ns : List Micro} {s : State}
    (first : peerByte (runBody ms s).1 a = peerByte s a)
    (second : ∀ u, runBody ms s = (u, none) → peerByte (runBody ns u).1 a = peerByte u a) :
    peerByte (runBody (ms ++ ns) s).1 a = peerByte s a := by
  rw [runBody_append]
  split
  · next u e =>
    rw [e] at first
    exact (second u e).trans first
  · next e =>
    rw [e] at first
    exact first

/-- The address is none that the command byte selects for writing. -/
def Unselected (cfg : Config) (a : Nat) (cmd : Byte) : Prop := ∀ sl, lookup cfg cmd = .wr sl → a ≠ sl.addr

/-- A frame stores nothing where its command byte selects nothing for writing: while the command byte is sent the sixteenth rise
is not reached, and behind it the slot is selected. -/
theorem Frame.Sends.run_peerByte {f : Frame} {cmd : Byte} (sends : f.Sends cmd) {a : Nat} {s : State}
    (free : Unselected s.cfg a cmd) : peerByte (f.run s).1 a = peerByte s a := by
  obtain ⟨ms, body, noRst⟩ := sends
  have ran : peerByte (runBody f.body s).1 a = peerByte s a := by
    rw [body]
    refine runBody_append_peerByte (Reg.Same.body (q := .memory) rfl s a) fun u opened => ?_
    have openedHeard := runBody_heard rfl opened
    have cfg : u.cfg = s.cfg := by simpa [opened] using (Keeps.body [.rst true, .dir .out] s).cfg
    refine runBody_append_peerByte (s := { u with txd := cmd }) (runBody_spares ?_ rfl) fun w sent =>
      runBody_spares ?_ noRst
    · intro p hp
      obtain ⟨q, -, rfl⟩ := Option.map_eq_some_iff.1 (openedHeard.peer.symm.trans hp)
      exact .inl (show 0 + 8 < 16 by decide)
    · intro p hp
      have sentHeard := runBody_heard rfl sent
      have heard : Heard ([.rst true, .dir .out] ++ txTrace cmd) s w :=
        openedHeard.trans cfg ⟨sentHeard.peer, sentHeard.level⟩
      obtain ⟨q, -, rfl⟩ := Option.map_eq_some_iff.1 (heard.peer.symm.trans hp)
      rw [hear_command]
      exact .inr ⟨Nat.le_refl 8, free⟩
  unfold Frame.run
  split
  · rw [lower_state]
    exact (Reg.Same.micro (q := .memory) rfl _ a).trans ran
  · exact ran

/-- Frames store nothing where none of their command bytes selects anything for writing. -/
theorem runFrames_peerByte {a : Nat} {cfg : Config} {fs : List Frame} (got : List Byte) {s : State} (hc : s.cfg = cfg)
    (h : ∀ f ∈ fs, ∃ cmd, f.Sends cmd ∧ Unselected cfg a cmd) : peerByte (runFrames fs got s).1 a = peerByte s a := by
  induction fs generalizing got s with
  | nil => rfl
  | cons f fs ih =>
    obtain ⟨cmd, sends, free⟩ := h f (.head _)
    have same := sends.run_peerByte (hc ▸ free)
    have keeps := Keeps.frame f s
    simp only [runFrames]
    split
    · next e =>
      rw [e] at same keeps
      exact (ih _ (keeps.cfg.trans hc) fun g hg => h g (.tail _ hg)).trans same
    · next e =>
      rw [e] at same
      exact same

theorem exec_frames_peerByte {i : Instr} {s t : State} {a : Nat} (h : exec i s = .next t)
    (frames : ∀ f ∈ (planOf s.cfg i).frames, ∃ cmd, f.Sends cmd ∧ Unselected s.cfg a cmd) :
    peerByte t a = peerByte s a :=
  (exec_peerByte h a).trans (runFrames_peerByte (s := issueOp (commandWord s.cfg.tab i) s) [] rfl frames)

/-- Settles O44: each of these operations is one frame that sends `cmd` first. -/
theorem frameMemoryFrame : Obligations.FrameMemoryFrame := by
  intro i cmd s t a hi h free
  have frame : ∃ f, (planOf s.cfg i).frames = [f] ∧ f.Sends cmd := by
    rcases hi with ⟨d, rfl⟩ | rfl | ⟨k, f1, f0, tens, ones, rfl, rfl⟩ | ⟨k, rfl, rfl⟩ | ⟨k, d, rfl, rfl⟩ | ⟨k, rfl, rfl⟩
    · exact ⟨_, rfl, writeFrame_sends ..⟩
    · exact ⟨_, rfl, readFrame_sends _⟩
    · exact ⟨_, rfl, writeFrame_sends ..⟩
    · exact ⟨_, rfl, readFrame_sends _⟩
    · exact ⟨_, by rw [planOf_wrCode]; rfl, writeFrame_sends ..⟩
    · exact ⟨_, by rw [planOf_rdCode]; rfl, readFrame_sends _⟩
  obtain ⟨f, frames, sends⟩ := frame
  refine exec_frames_peerByte h fun g hg => ⟨cmd, ?_, free⟩
  obtain rfl : g = f := by simpa [frames] using hg
  exact sends

/-- Settles O45: the frames of the two sequences send the command bytes listed. -/
theorem timerMemoryFrame : Obligations.TimerMemoryFrame := by
  intro s t a
  constructor
  · intro h free
    refine exec_frames_peerByte h fun f hf => ?_
    obtain ⟨w, hw, rfl⟩ := List.mem_map.1 hf
    exact ⟨w.1, writeFrame_sends .., free w hw⟩
  · intro h free
    refine exec_frames_peerByte h fun f hf => ?_
    obtain ⟨c, hc, rfl⟩ := List.mem_map.1 hf
    exact ⟨c, readFrame_sends c, free c hc⟩

/-! The loopback (R66). -/

/-- What each code selects, in the order in which PEER-ECHO looks it up (R65). -/
def codeSels (cfg : Config) : List (Byte × Sel) :=
  [.sec, .min, .hour, .date, .month, .year, .day, .wp].flatMap
    (fun k => [((cfg.tab.get k).wr, .wr (.reg k)), ((cfg.tab.get k).rd, .rd (.reg k))]) ++
  [(cfg.ctlCharge, .wr .charge), (cfg.ctlTrickle, .wr .trickle)]

/-- The first entry of a code in a list of codes, or none. -/
def firstSel (c : Byte) (l : List (Byte × Sel)) : Sel := l.foldr (fun x rest => if c = x.1 then x.2 else rest) .none

theorem lookup_eq_firstSel (cfg : Config) (c : Byte) : lookup cfg c = firstSel c (codeSels cfg) := rfl

/-- Among pairwise different codes the first entry of a code is its only one. -/
theorem firstSel_of_mem {l : List (Byte × Sel)} {c : Byte} {x : Sel} (distinct : (l.map Prod.fst).Nodup) (mem : (c, x) ∈ l) :
    firstSel c l = x := by
  induction l with
  | nil => nomatch mem
  | cons y l ih =>
    obtain ⟨new, distinct⟩ := List.nodup_cons.1 distinct
    cases mem with
    | head => exact if_pos rfl
    | tail _ mem =>
      have other : c ≠ y.1 := by
        rintro rfl
        exact new (List.mem_map.2 ⟨_, mem, rfl⟩)
      exact (if_neg other).trans (ih distinct mem)

/-- Under the premise of R65 every code selects what its entry says. -/
theorem lookup_of_mem {cfg : Config} {c : Byte} {x : Sel} (h : cfg.Distinct) (mem : (c, x) ∈ codeSels cfg) :
    lookup cfg c = x :=
  (lookup_eq_firstSel cfg c).trans (firstSel_of_mem h mem)

theorem lookup_wr {cfg : Config} (h : cfg.Distinct) (k : Kind) : lookup cfg (cfg.tab.get k).wr = .wr (.reg k) :=
  lookup_of_mem h (by cases k <;> simp [codeSels])

theorem lookup_rd {cfg : Config} (h : cfg.Distinct) (k : Kind) : lookup cfg (cfg.tab.get k).rd = .rd (.reg k) :=
  lookup_of_mem h (by cases k <;> simp [codeSels])

/-- A write frame stores its data byte in the slot its command byte selects. -/
theorem hear_writeTrace_mem {cfg : Config} {cmd : Byte} {sl : Slot} (h : lookup cfg cmd = .wr sl) (d : Bool) (dat : Byte)
    (p : Peer) : (p.hear cfg d (writeTrace cmd dat)).mem = p.mem.write sl.addr dat := by
  rw [writeTrace, hear_append, hear_append, hear_command, hear_data h]
  rfl

theorem cycleIndices_drop {m : Nat} {t : BitVec 3} {ts : List (BitVec 3)} (h : cycleIndices.drop m = t :: ts) :
    m < 8 ∧ t.toNat = m ∧ cycleIndices.drop (m + 1) = ts := by
  have lt : m < 8 := by
    by_contra ge
    rw [List.drop_eq_nil_of_le (show cycleIndices.length ≤ m from Nat.le_of_not_lt ge)] at h
    cases h
  have index : ∀ m (lt : m < 8), (cycleIndices[m]'lt).toNat = m := by decide
  rw [List.drop_eq_getElem_cons (show m < cycleIndices.length from lt)] at h
  obtain ⟨rfl, rfl⟩ := List.cons.inj h
  exact ⟨lt, index m lt, rfl⟩

/-- PEER-ECHO in a read frame of the slot `sl`, which holds `b`, with the bits of the cycles `ts` not yet put out (R65). -/
structure Peer.PutsOut (sl : Slot) (b : Byte) (ts : List (BitVec 3)) (p : Peer) : Prop where
  act : p.act = true
  pclk : p.pclk = true
  taken : 8 ≤ p.n
  sel : p.sel = .rd sl
  value : p.mem.read sl.addr = some b
  left : cycleIndices.drop p.m = ts

/-- In a receive cycle the fall puts out the next bit, and the rise takes nothing. -/
theorem Peer.PutsOut.hear_cycle {sl : Slot} {b : Byte} {t : BitVec 3} {ts : List (BitVec 3)} {p : Peer}
    (h : p.PutsOut sl b (t :: ts)) (cfg : Config) (d : Bool) :
    p.hear cfg d [.clk false, .dly, .clk true, .dly] = { p with out := some (bitAt b t), m := p.m + 1 } ∧
    Peer.PutsOut sl b ts { p with out := some (bitAt b t), m := p.m + 1 } := by
  obtain ⟨act, pclk, taken, sel, value, left⟩ := h
  obtain ⟨lt, index, left⟩ := cycleIndices_drop left
  refine ⟨?_, ⟨act, pclk, taken, sel, value, left⟩⟩
  have full : ¬ p.n < 8 := by omega
  simp [Peer.hear, Peer.react, Peer.fall, Peer.rise, act, pclk, sel, lt, full, value, bitAt, index]

/-- The environment is PEER-ECHO putting out `b`, on a released line (R63, R65). -/
def Echoing (sl : Slot) (b : Byte) (lv : List Bool) (dr : Nat) (ts : List (BitVec 3)) (u : State) : Prop :=
  u.dataOe = false ∧ (∃ p, u.peer = some p ∧ p.PutsOut sl b ts) ∧ u.levels = lv ∧ u.draws = dr

theorem shows_echoing (sl : Slot) (b : Byte) (lv : List Bool) (dr : Nat) : Shows false b (Echoing sl b lv dr) := by
  rintro t ts u q r ⟨released, ⟨p, peer, puts⟩, rfl, rfl⟩
  obtain ⟨heard, puts⟩ := puts.hear_cycle u.cfg u.dataOut
  refine ⟨u.levels, u.draws, ?_, released, ⟨_, ?_, puts⟩, rfl, rfl⟩
  · simp [dataIn, beforeAction, raised, Machine.heard, peerLevel, peer, heard, released]
  · have sampled : p.hear u.cfg u.dataOut (cycleEvents false (.smp (bitAt b t))) =
        p.hear u.cfg u.dataOut [.clk false, .dly, .clk true, .dly] := rfl
    simp [listened, Machine.heard, peer, sampled, heard]

/-- A read frame in which every pin action succeeds receives the byte of the slot its command byte selects. -/
theorem readFrame_peer {s : State} {r : List PinAnswer} {p : Peer} {cmd b : Byte} {sl : Slot} (h : s.pins = okPins 52 r)
    (peer : s.peer = some p) (sel : lookup s.cfg cmd = .rd sl) (value : p.mem.read sl.addr = some b) :
    (readFrame cmd).run s =
      ({ s with
          clk := true, dataOut := cmd.getLsbD 7, dataOe := false, rst := false, txd := cmd, rxd := b, t := 7, ph := true
          evIdx := s.evIdx + 84, dly := 0, pins := r, trace := s.trace ++ readTrace cmd b
          peer := some (p.hear s.cfg s.dataOut (readTrace cmd b)) }, none) := by
  have closes : (readFrame cmd).closes = true := rfl
  have addressed : (commanded cmd (okPins 25 r) s).peer = some (p.addressed s.cfg cmd) := by
    have heard : p.hear s.cfg s.dataOut (commandTrace cmd) = p.addressed s.cfg cmd := by
      rw [commandTrace, hear_append, hear_command]
      rfl
    simp [commanded, peer, heard]
  obtain ⟨lv, dr, received, -, -, levels, draws⟩ := runBody_receive (shows_echoing sl b s.levels s.draws)
    (s := commanded cmd (okPins 25 r) s) (r := okPins 1 r) rfl rfl
    ⟨rfl, ⟨_, addressed, rfl, rfl, Nat.le_refl 8, sel, value, rfl⟩, rfl, rfl⟩ []
  obtain rfl : lv = s.levels := levels
  obtain rfl : dr = s.draws := draws
  rw [List.append_nil] at received
  simp only [Frame.run, closes, if_true, runBody_readFrame (r := okPins 25 r) cmd h, received, runBody, lower, pinDriveRst]
  rw [drive_ok (r := r) _ rfl]
  simp [listened, heard, commanded, commandTrace, State.emit, Drive.apply, Drive.event, readTrace, receiveTrace, peer,
    rxTrace, txTrace, bitsOf, Peer.hear, lastLevel]

/-- Against PEER-ECHO an operation of one read frame delivers the byte of the slot its command byte selects. -/
theorem perform_readFrame_peer {i : Instr} {p : Plan} {s : State} {rest : List PinAnswer} {q : Peer} {cmd b : Byte}
    {sl : Slot} (stop : p.stop s = none) (frames : p.frames = [readFrame cmd]) (pins : s.pins = okPins 52 rest)
    (peer : s.peer = some q) (sel : lookup s.cfg cmd = .rd sl) (value : q.mem.read sl.addr = some b) : perform i p s =
      .next (completeOk p [b] (readDone (commandWord s.cfg.tab i) cmd b rest s.levels s.draws s)) := by
  have run := readFrame_peer (s := issueOp (commandWord s.cfg.tab i) s) pins peer sel value
  exact perform_readFrame stop frames (by simpa [readDone, issueOp, peer] using run)

/-- Settles O54: the write stores the byte in the kind's slot, and the read puts that slot out. -/
theorem loopback : Obligations.Loopback := by
  intro k d p s rest distinct notBusy peer pins
  have write := perform_writeFrame (i := .wrtxn (s.cfg.tab.get k).wr d) (p := planWrtxn (s.cfg.tab.get k).wr d)
    (rest := okPins 52 rest) (stop_of_always rfl notBusy) rfl rfl (pins.trans (okPins_add 51 52 rest))
  have stored : (p.hear s.cfg s.dataOut (writeTrace (s.cfg.tab.get k).wr d)).mem.read (Slot.reg k).addr = some d := by
    rw [hear_writeTrace_mem (lookup_wr distinct k), Memory.read_write_same]
  generalize commandWord s.cfg.tab _ = w at write
  have heard : (writeDone w (s.cfg.tab.get k).wr d (okPins 52 rest) s).peer =
      some (p.hear s.cfg s.dataOut (writeTrace (s.cfg.tab.get k).wr d)) := by simp [writeDone, peer]
  have read := perform_readFrame_peer (i := .rdtxn (s.cfg.tab.get k).rd) (p := planRdtxn (s.cfg.tab.get k).rd)
    (rest := rest) (stop_of_always rfl rfl) rfl rfl heard (lookup_rd distinct k) stored
  exact ⟨_, _, write, rfl, read, rfl, rfl⟩

end Sys2Proof.Machine

/-! PROOFS. The family of spec/30_encoding.md: the command word and the wire codes decode to what they encode (R80 to R87),
which words do (R82, R85), and the register operations that carry the byte layouts (R89 to R99). -/

namespace Sys2Proof

/-! An operation of the command word is what its word decodes to (R80 to R85). -/

@[simp] theorem subOfKind_bit3 (k : Kind) : (subOfKind k)[3] = false := by cases k <;> rfl

@[simp] theorem ofCode_subOfKind (k : Kind) : Kind.ofCode ((subOfKind k).extractLsb' 0 3) = k := by cases k <;> rfl

@[simp] theorem flagsOf_aOfFlags (f1 f0 : Bool) : flagsOf (aOfFlags f1 f0) = (f1, f0) := by
  cases f1 <;> cases f0 <;> rfl

@[simp] theorem aOfFlags_high (f1 f0 : Bool) : (aOfFlags f1 f0).extractLsb' 2 6 = 0 := by
  cases f1 <;> cases f0 <;> rfl

@[simp] theorem digitOf_byteOfDigit (d : BitVec 4) : digitOf (byteOfDigit d) = d := by
  revert d
  decide

@[simp] theorem byteOfDigit_high (d : BitVec 4) : (byteOfDigit d).extractLsb' 4 4 = 0 := by
  revert d
  decide

@[simp] theorem partsReserved_opc (opc : BitVec 4) (r : BitVec 28) : (partsReserved opc r).opc = opc := rfl

@[simp] theorem restOf_partsReserved (opc : BitVec 4) (r : BitVec 28) : restOf (partsReserved opc r) = r := by
  simp only [restOf, partsReserved]
  rw [BitVec.extractLsb'_append_extractLsb'_eq_extractLsb' (by rfl),
    BitVec.extractLsb'_append_extractLsb'_eq_extractLsb' (by rfl),
    BitVec.extractLsb'_append_extractLsb'_eq_extractLsb' (by rfl)]
  exact BitVec.extractLsb'_eq_self

theorem decodeK_partsK (mk : Kind → Bool → Bool → BitVec 4 → BitVec 4 → Instr) (opc : BitVec 4) (k : Kind)
    (f1 f0 : Bool) (tens ones : BitVec 4) : decodeK mk (partsK opc k f1 f0 tens ones) = .ok (mk k f1 f0 tens ones) := by
  simp [decodeK, legalK, kindOf, partsK]

theorem decodeParts_dec (k : Kind) (b : Byte) : decodeParts ⟨0x7, subOfKind k, 0, 0, b⟩ = .ok (decOf k b) := by
  simp [decodeParts, kindOf]

theorem decodeParts_encodeParts (tab : CmdTab) {i : Instr} (h : i.isCommand = true) :
    decodeParts (encodeParts tab i) = .ok i := by
  cases i with
  | txbyte | txbyteH | rxbyte | rxbyteL | wrtxn | rdtxn | rsttimer | rdtimer => rfl
  | wrreg k f1 f0 tens ones => exact decodeK_partsK .wrreg 0x4 k f1 f0 tens ones
  | rdreg k => simp [encodeParts, decodeParts, kindOf]
  | encSec f1 f0 tens ones | encMin f1 f0 tens ones | encHour f1 f0 tens ones | encDate f1 f0 tens ones
  | encMonth f1 f0 tens ones | encYear f1 f0 tens ones | encDay f1 f0 tens ones | encWp f1 f0 tens ones =>
    exact decodeK_partsK encOf 0x6 _ f1 f0 tens ones
  | decSec b | decMin b | decHour b | decDate b | decMonth b | decYear b | decDay b | decWp b =>
    exact decodeParts_dec _ b
  | setrst v => cases v <;> simp [encodeParts, decodeParts]
  | setdir d => cases d <;> simp [encodeParts, decodeParts]
  | reserved0 r | reservedC r | reservedD r | reservedE r | reservedF r => simp [encodeParts, decodeParts]
  | _ => nomatch h

theorem decodeWord_commandWord (tab : CmdTab) {i : Instr} (h : i.isCommand = true) :
    decodeWord (commandWord tab i) = .ok i := by
  rw [decodeWord, commandWord, Parts.ofWord_toWord, decodeParts_encodeParts tab h]

theorem encode_of_isCommand (tab : CmdTab) {i : Instr} (h : i.isCommand = true) :
    encode tab i = .cw (commandWord tab i) := by
  cases i with
  | cmdSecWr | cmdMinWr | cmdHourWr | cmdDateWr | cmdMonthWr | cmdYearWr | cmdDayWr | cmdWpWr => nomatch h
  | cmdSecRd | cmdMinRd | cmdHourRd | cmdDateRd | cmdMonthRd | cmdYearRd | cmdDayRd | cmdWpRd => nomatch h
  | _ => rfl

end Sys2Proof

namespace Sys2Proof.Machine

/-! A wire code is what its byte decodes to (R86, R87; log 5). -/

/-- What each code of the table selects, in the order of R65. -/
def kindSels (tab : CmdTab) : List (Byte × Sel) :=
  [.sec, .min, .hour, .date, .month, .year, .day, .wp].flatMap
    fun k => [((tab.get k).wr, .wr (.reg k)), ((tab.get k).rd, .rd (.reg k))]

/-- The wire code of a selected register, with the byte that follows it. -/
def wireOf (dat : Byte) : Sel → Except Reject Instr
  | .wr (.reg k) => .ok (wrCode k dat)
  | .rd (.reg k) => readCode dat (rdCode k)
  | _ => .error .unlistedCode

/-- The decoder of the wire space compares a byte with the codes in the order in which PEER-ECHO does. -/
theorem decodeWire_eq_firstSel (tab : CmdTab) (cmd dat : Byte) :
    decodeWire tab cmd dat = wireOf dat (firstSel cmd (kindSels tab)) := by
  simp only [firstSel, kindSels, List.flatMap_cons, List.flatMap_nil, List.cons_append, List.nil_append, List.foldr,
    apply_ite (wireOf dat)]
  rfl

/-- With pairwise different codes a byte of the table decodes as what it selects. -/
theorem decodeWire_of_mem {tab : CmdTab} {cmd : Byte} {x : Sel} (distinct : tab.codes.Nodup)
    (mem : (cmd, x) ∈ kindSels tab) (dat : Byte) : decodeWire tab cmd dat = wireOf dat x := by
  rw [decodeWire_eq_firstSel, firstSel_of_mem (l := kindSels tab) distinct mem]

theorem decodeWire_wr {tab : CmdTab} (distinct : tab.codes.Nodup) (k : Kind) (dat : Byte) :
    decodeWire tab (tab.get k).wr dat = .ok (wrCode k dat) :=
  decodeWire_of_mem distinct (x := .wr (.reg k)) (by cases k <;> simp [kindSels]) dat

theorem decodeWire_rd {tab : CmdTab} (distinct : tab.codes.Nodup) (k : Kind) :
    decodeWire tab (tab.get k).rd 0 = .ok (rdCode k) :=
  decodeWire_of_mem distinct (x := .rd (.reg k)) (by cases k <;> simp [kindSels]) 0

theorem encode_wrCode (tab : CmdTab) (k : Kind) (dat : Byte) :
    encode tab (wrCode k dat) = .wire (tab.get k).wr dat := by cases k <;> rfl

theorem encode_rdCode (tab : CmdTab) (k : Kind) : encode tab (rdCode k) = .wire (tab.get k).rd 0 := by
  cases k <;> rfl

/-- An operation has a command word, or is the write or the read code of a kind. -/
theorem isCommand_or_wireCode (i : Instr) :
    i.isCommand = true ∨ (∃ k dat, i = wrCode k dat) ∨ ∃ k, i = rdCode k := by
  cases i with
  | cmdSecWr d => exact .inr (.inl ⟨.sec, d, rfl⟩)
  | cmdMinWr d => exact .inr (.inl ⟨.min, d, rfl⟩)
  | cmdHourWr d => exact .inr (.inl ⟨.hour, d, rfl⟩)
  | cmdDateWr d => exact .inr (.inl ⟨.date, d, rfl⟩)
  | cmdMonthWr d => exact .inr (.inl ⟨.month, d, rfl⟩)
  | cmdYearWr d => exact .inr (.inl ⟨.year, d, rfl⟩)
  | cmdDayWr d => exact .inr (.inl ⟨.day, d, rfl⟩)
  | cmdWpWr d => exact .inr (.inl ⟨.wp, d, rfl⟩)
  | cmdSecRd => exact .inr (.inr ⟨.sec, rfl⟩)
  | cmdMinRd => exact .inr (.inr ⟨.min, rfl⟩)
  | cmdHourRd => exact .inr (.inr ⟨.hour, rfl⟩)
  | cmdDateRd => exact .inr (.inr ⟨.date, rfl⟩)
  | cmdMonthRd => exact .inr (.inr ⟨.month, rfl⟩)
  | cmdYearRd => exact .inr (.inr ⟨.year, rfl⟩)
  | cmdDayRd => exact .inr (.inr ⟨.day, rfl⟩)
  | cmdWpRd => exact .inr (.inr ⟨.wp, rfl⟩)
  | _ => exact .inl rfl

theorem not_isCommand_wrCode (k : Kind) (dat : Byte) : (wrCode k dat).isCommand = false := by cases k <;> rfl

theorem not_isCommand_rdCode (k : Kind) : (rdCode k).isCommand = false := by cases k <;> rfl

/-- Settles O1: a command word by the operation map, a wire code by its place in the table. -/
theorem decodeOfEncode : Obligations.DecodeOfEncode := by
  intro tab i h
  obtain command | ⟨k, dat, rfl⟩ | ⟨k, rfl⟩ := isCommand_or_wireCode i
  · rw [encode_of_isCommand tab command]
    exact decodeWord_commandWord tab command
  · rw [encode_wrCode]
    exact decodeWire_wr (h.resolve_left (by simp [not_isCommand_wrCode])) k dat
  · rw [encode_rdCode]
    exact decodeWire_rd (h.resolve_left (by simp [not_isCommand_rdCode])) k

/-- Settles O2: no bit of a word that decodes is lost. -/
theorem encodeOfDecode : Obligations.EncodeOfDecode := fun _ _ _ h => commandWord_of_decodeWord h

end Sys2Proof.Machine

namespace Sys2Proof

open Machine

/-! Which words decode (R82, R85). -/

/-- A word matches a row of the opcode table. -/
def MatchesRow (w : Word) : Prop := ∃ row ∈ commandRows, w &&& row.2 = row.1

theorem MatchesRow.of_inRow {i : Instr} {pat mask : Word} (h : Laws.Table.InRow i pat mask) (tab : CmdTab)
    (mem : (pat, mask) ∈ commandRows := by decide) : MatchesRow (commandWord tab i) := ⟨_, mem, (h tab).2⟩

/-- The command word of every operation lies in the operation's row, that of a wire code in the row of the transaction it
opens. -/
theorem commandWord_matchesRow (tab : CmdTab) (i : Instr) : MatchesRow (commandWord tab i) := by
  have write (cmd dat : Byte) : MatchesRow (commandWord tab (.wrtxn cmd dat)) :=
    .of_inRow (Laws.Table.wrtxn cmd dat) tab
  have read (cmd : Byte) : MatchesRow (commandWord tab (.rdtxn cmd)) := .of_inRow (Laws.Table.rdtxn cmd) tab
  cases i with
  | txbyte src => exact .of_inRow (Laws.Table.txbyte src) tab
  | txbyteH src => exact .of_inRow (Laws.Table.txbyteH src) tab
  | rxbyte => exact .of_inRow Laws.Table.rxbyte tab
  | rxbyteL => exact .of_inRow Laws.Table.rxbyteL tab
  | wrtxn cmd dat => exact .of_inRow (Laws.Table.wrtxn cmd dat) tab
  | rdtxn cmd => exact .of_inRow (Laws.Table.rdtxn cmd) tab
  | wrreg k f1 f0 tens ones => exact .of_inRow (Laws.Table.wrreg k f1 f0 tens ones) tab
  | rdreg k => exact .of_inRow (Laws.Table.rdreg k) tab
  | encSec f1 f0 tens ones => exact .of_inRow (Laws.Table.encSec f1 f0 tens ones) tab
  | encMin f1 f0 tens ones => exact .of_inRow (Laws.Table.encMin f1 f0 tens ones) tab
  | encHour f1 f0 tens ones => exact .of_inRow (Laws.Table.encHour f1 f0 tens ones) tab
  | encDate f1 f0 tens ones => exact .of_inRow (Laws.Table.encDate f1 f0 tens ones) tab
  | encMonth f1 f0 tens ones => exact .of_inRow (Laws.Table.encMonth f1 f0 tens ones) tab
  | encYear f1 f0 tens ones => exact .of_inRow (Laws.Table.encYear f1 f0 tens ones) tab
  | encDay f1 f0 tens ones => exact .of_inRow (Laws.Table.encDay f1 f0 tens ones) tab
  | encWp f1 f0 tens ones => exact .of_inRow (Laws.Table.encWp f1 f0 tens ones) tab
  | decSec b => exact .of_inRow (Laws.Table.decSec b) tab
  | decMin b => exact .of_inRow (Laws.Table.decMin b) tab
  | decHour b => exact .of_inRow (Laws.Table.decHour b) tab
  | decDate b => exact .of_inRow (Laws.Table.decDate b) tab
  | decMonth b => exact .of_inRow (Laws.Table.decMonth b) tab
  | decYear b => exact .of_inRow (Laws.Table.decYear b) tab
  | decDay b => exact .of_inRow (Laws.Table.decDay b) tab
  | decWp b => exact .of_inRow (Laws.Table.decWp b) tab
  | rsttimer => exact .of_inRow Laws.Table.rsttimer tab
  | rdtimer => exact .of_inRow Laws.Table.rdtimer tab
  | setrst v => exact .of_inRow (Laws.Table.setrst v) tab
  | setdir d => exact .of_inRow (Laws.Table.setdir d) tab
  | reserved0 rest => exact .of_inRow (Laws.Table.reserved0 rest) tab
  | reservedC rest => exact .of_inRow (Laws.Table.reservedC rest) tab
  | reservedD rest => exact .of_inRow (Laws.Table.reservedD rest) tab
  | reservedE rest => exact .of_inRow (Laws.Table.reservedE rest) tab
  | reservedF rest => exact .of_inRow (Laws.Table.reservedF rest) tab
  | cmdSecWr dat | cmdMinWr dat | cmdHourWr dat | cmdDateWr dat | cmdMonthWr dat | cmdDayWr dat | cmdYearWr dat
  | cmdWpWr dat => exact write _ dat
  | cmdSecRd | cmdMinRd | cmdHourRd | cmdDateRd | cmdMonthRd | cmdDayRd | cmdYearRd | cmdWpRd => exact read _

/-! The masks of the rows, as the conditions of the decoder. -/

theorem and_allOnes4 (x : BitVec 4) : x &&& 15#4 = x := BitVec.and_allOnes

theorem and_allOnes8 (x : Byte) : x &&& 255#8 = x := BitVec.and_allOnes

theorem and_bit3_eq_zero {x : BitVec 4} : x &&& 8#4 = 0#4 ↔ x[3] = false := by
  revert x
  decide

theorem and_bits31_eq_zero {x : BitVec 4} : x &&& 14#4 = 0#4 ↔ x.extractLsb' 1 3 = 0#3 := by
  revert x
  decide

theorem and_bits72_eq_zero {x : Byte} : x &&& 252#8 = 0#8 ↔ x.extractLsb' 2 6 = 0#6 := by
  revert x
  decide

theorem and_bits74_eq_zero {x : Byte} : x &&& 240#8 = 0#8 ↔ x.extractLsb' 4 4 = 0#4 := by
  revert x
  decide

/-- The fields of a word that matches a row match the row's. -/
theorem Parts.and_of_toWord_and {p : Parts} {mask pat : Word} (h : p.toWord &&& mask = pat) :
    p.opc &&& (ofWord mask).opc = (ofWord pat).opc ∧ p.sub &&& (ofWord mask).sub = (ofWord pat).sub ∧
      p.a &&& (ofWord mask).a = (ofWord pat).a ∧ p.b &&& (ofWord mask).b = (ofWord pat).b ∧
      p.c &&& (ofWord mask).c = (ofWord pat).c := by
  rw [← toWord_ofWord mask, ← toWord_ofWord pat, toWord_and] at h
  exact Parts.ext_iff.1 (toWord_inj h)

/-- A row fixes the opcode, and asks for the zeros that the decoder's arm for that opcode asks for. -/
theorem decodeParts_of_row (p : Parts) :
    ∀ row ∈ commandRows, p.toWord &&& row.2 = row.1 → ∃ i, decodeParts p = .ok i := by
  simp only [commandRows, List.cons_append, List.nil_append, List.forall_mem_cons,
    List.not_mem_nil, false_imp_iff, implies_true, and_true]
  and_intros
  all_goals
    intro matched
    have fields := Parts.and_of_toWord_and matched
    simp only [Parts.ofWord, BitVec.ofNat_eq_ofNat, BitVec.reduceExtractLsb', BitVec.and_zero, and_allOnes4,
      and_allOnes8, and_bit3_eq_zero, and_bits31_eq_zero, and_bits72_eq_zero, and_bits74_eq_zero] at fields
    simp [decodeParts, decodeB, decodeK, legalK, fields]

theorem decodeWord_of_matchesRow {w : Word} (h : MatchesRow w) : ∃ i, decodeWord w = .ok i := by
  obtain ⟨row, mem, matched⟩ := h
  rw [← Parts.toWord_ofWord w] at matched
  exact decodeParts_of_row _ row mem matched

/-- Settles O3: a word that decodes is the command word of an operation, and that lies in a row; a row has the zeros that
decoding asks for. -/
theorem wordsOfTheTable : Obligations.WordsOfTheTable := by
  intro w
  constructor
  · rintro ⟨i, decoded⟩
    rw [← commandWord_of_decodeWord (tab := CmdTab.suggested) decoded]
    exact commandWord_matchesRow _ i
  · exact decodeWord_of_matchesRow

end Sys2Proof

namespace Sys2Proof.Machine

/-! The register operations and the codec's decoder, with the byte layouts of R89 to R99. -/

/-- Inside the domain of R196 the encoder follows the packing law (R178). -/
theorem encodeFields_eq_packed {k : Kind} {f1 f0 : Bool} {tens ones : BitVec 4}
    (h : inDomain k f1 f0 tens ones = true) : encodeFields k f1 f0 tens ones = packed k f1 f0 tens ones := by
  cases k <;> revert f1 f0 tens ones <;> decide

/-- The decoder reads a byte by the general layout (R89 to R97, R99). -/
theorem decodeFields_eq_unpacked (k : Kind) (b : Byte) : decodeFields k b = unpacked k b := by
  cases k <;> revert b <;> decide

/-! The command words (R81, R82). -/

theorem commandWord_wrreg (tab : CmdTab) (k : Kind) (f1 f0 : Bool) (tens ones : BitVec 4) :
    commandWord tab (.wrreg k f1 f0 tens ones) =
      0x4#4 ++ 0#1 ++ k.code ++ 0#6 ++ BitVec.ofBool f1 ++ BitVec.ofBool f0 ++ 0#4 ++ tens ++ 0#4 ++ ones := by
  simp only [commandWord, encodeParts, partsK, Parts.toWord, subOfKind, aOfFlags, byteOfDigit, BitVec.append_assoc,
    BitVec.cast_eq, BitVec.ofNat_eq_ofNat]

theorem commandWord_rdreg (tab : CmdTab) (k : Kind) :
    commandWord tab (.rdreg k) = 0x5#4 ++ 0#1 ++ k.code ++ 0#24 := by
  have zeros : 0#24 = 0#8 ++ 0#8 ++ 0#8 := rfl
  simp only [commandWord, encodeParts, Parts.toWord, subOfKind, zeros, BitVec.append_assoc, BitVec.cast_eq,
    BitVec.ofNat_eq_ofNat]

theorem commandWord_decOf (tab : CmdTab) (k : Kind) (b : Byte) :
    commandWord tab (decOf k b) = 0x7#4 ++ 0#1 ++ k.code ++ 0#16 ++ b := by
  have zeros : 0#16 = 0#8 ++ 0#8 := rfl
  simp only [commandWord, encodeParts_decOf, Parts.toWord, subOfKind, zeros, BitVec.append_assoc, BitVec.cast_eq,
    BitVec.ofNat_eq_ofNat]

/-- Settles O16: WRREG is its one write frame, and its domain lets it begin. -/
theorem writeRegisterCompletes : Obligations.WriteRegisterCompletes := by
  intro k f1 f0 tens ones s rest notBusy pins domain
  rw [← commandWord_wrreg s.cfg.tab, ← encodeFields_eq_packed domain]
  exact perform_writeFrame (p := planWrreg s.cfg k f1 f0 tens ones)
    (stop_of_always (domainGuard_of_inDomain domain) notBusy) rfl rfl pins

/-- Settles O17: RDREG is its one read frame, and the byte received is delivered with its fields. -/
theorem readRegisterCompletes : Obligations.ReadRegisterCompletes := by
  intro k s rest notBusy pins
  obtain ⟨b, lv, dr, run⟩ := perform_readFrame_some (i := .rdreg k) (p := planRdreg s.cfg k)
    (stop_of_always rfl notBusy) rfl pins
  refine ⟨b, lv, dr, run.trans ?_⟩
  rw [← commandWord_rdreg s.cfg.tab, ← decodeFields_eq_unpacked]
  rfl

theorem exec_decOf (k : Kind) (b : Byte) (s : State) : exec (decOf k b) s = perform (decOf k b) (planDec k b) s := by
  cases k <;> rfl

/-- Settles O21: DEC.k has no frame, and its result is the decoded fields. -/
theorem decodeCompletes : Obligations.DecodeCompletes := by
  intro k b s notBusy
  rw [exec_decOf, ← commandWord_decOf s.cfg.tab, ← decodeFields_eq_unpacked]
  exact perform_next.2 ⟨stop_of_always rfl notBusy, rfl⟩

/-! Words written out, and the words that are refused (R85). -/

/-- Settles O4: each word is a command word of its operation, and 0xA2000000 has a must-be-zero bit set. -/
theorem sampleWords : Obligations.SampleWords := by
  have decodes (i : Instr) (h : i.isCommand = true) : decodeWord (commandWord CmdTab.suggested i) = .ok i :=
    decodeWord_commandWord _ h
  exact ⟨decodes (.txbyte 0xB2) rfl, decodes .rxbyte rfl, decodes (.wrtxn 0x80 0x59) rfl, decodes (.rdtxn 0x81) rfl,
    decodes (.wrreg .hour true true 1 1) rfl, decodes (.rdreg .year) rfl, decodes (.encDate false false 3 1) rfl,
    decodes (.decDay 0xF3) rfl, decodes .rsttimer rfl, decodes .rdtimer rfl, decodes (.setrst true) rfl,
    decodes (.setdir .inp) rfl, decodeWire_rd (by decide) .year, rfl⟩

/-- Settles O6: a word that does not decode is refused by the name of its rejection. -/
theorem illegalWordRefused : Obligations.IllegalWordRefused := by
  intro s w rest rejected
  constructor
  · intro called
    simp [step, machineStep, called, hostTurn, call, decodeCall, rejected, refusalOf]
  · intro written
    simp [step, machineStep, written, hostTurn, hostWrite, decode, rejected, refusalOf]

/-- A write of CMD issues the operation of its command word. -/
theorem hostWrite_commandWord {i : Instr} (h : i.isCommand = true) (s : State) :
    hostWrite 0 (commandWord s.cfg.tab i) s = issue i s := by
  simp [hostWrite, decode, decodeWord_commandWord s.cfg.tab h]

theorem issue_of_stop {i : Instr} {s : State} {r : Refusal} (h : (planOf s.cfg i).stop s = some r) :
    issue i s = .refused r := by
  simp [issue, h]

/-- Settles O25: `exec` refuses a reserved opcode in every state, and its plan never begins. -/
theorem reservedRefused : Obligations.ReservedRefused := by
  intro r s i reserved
  have facts : exec i s = .refused .reservedOpcode ∧ planOf s.cfg i = planReserved ∧ i.isCommand = true := by
    obtain rfl | rfl | rfl | rfl | rfl := reserved <;> exact ⟨rfl, rfl, rfl⟩
  obtain ⟨called, plan, command⟩ := facts
  refine ⟨called, fun notBusy => ?_⟩
  have issued : issue i s = .refused .reservedOpcode := issue_of_stop (by simp [plan, Plan.stop, planReserved, notBusy])
  exact ⟨issued, (hostWrite_commandWord command s).trans issued⟩

end Sys2Proof.Machine

/-! PROOFS. The family of spec/40_pin_primitives.md: the two pin operations (R130, R131, R241), a transmit run while the direction
is IN (R128), and what a run and a frame do when one of their pin actions fails (R127, R144, R162, R242). -/

namespace Sys2Proof.Machine

/-! A pin action, answered. -/

/-- A state with the oracle's coming answers replaced. -/
def State.withPins (s : State) (ps : List PinAnswer) : State := { s with pins := ps }

@[simp] theorem State.withPins_trace (s : State) (ps : List PinAnswer) : (s.withPins ps).trace = s.trace := rfl
@[simp] theorem State.withPins_evIdx (s : State) (ps : List PinAnswer) : (s.withPins ps).evIdx = s.evIdx := rfl
@[simp] theorem State.withPins_rxd (s : State) (ps : List PinAnswer) : (s.withPins ps).rxd = s.rxd := rfl

theorem State.eq_withPins {s : State} {ps : List PinAnswer} (h : s.pins = ps) : s = s.withPins ps := by
  subst h
  rfl

/-! An operation of one frame that fails (R241, R242). -/

theorem perform_frame_failed {i : Instr} {p : Plan} {f : Frame} {s u : State} {e : Failure} (stop : p.stop s = none)
    (frames : p.frames = [f]) (run : f.run (issueOp (commandWord s.cfg.tab i) s) = (u, some e)) :
    perform i p s = .next (completeErr p e u) :=
  perform_next.2 ⟨stop, by simp only [frames, runFrames, run, complete]⟩

/-- A completion with Err leaves the lines as they were. -/
theorem completeErr_lines (p : Plan) (e : Failure) (s : State) : SameLines s (completeErr p e s) := by
  simp [SameLines]

/-! The two pin operations (R130, R131), and a transmit run while the direction is IN (R128). -/

theorem commandWord_setrst (tab : CmdTab) (v : Bool) :
    commandWord tab (.setrst v) = 0xA#4 ++ 0#3 ++ BitVec.ofBool v ++ 0#24 := by
  show (Parts.mk 0xA (0#3 ++ BitVec.ofBool v) 0 0 0).toWord = _
  revert v
  decide

theorem commandWord_setdir (tab : CmdTab) (d : Dir) :
    commandWord tab (.setdir d) = 0xB#4 ++ 0#3 ++ BitVec.ofBool (d == .out) ++ 0#24 := by
  show (Parts.mk 0xB (if d = .out then 1 else 0) 0 0 0).toWord = _
  cases d <;> decide

section PinOperation
variable {m : Micro} {x : Drive} {s : State} {ps : List PinAnswer} (step : ∀ u, m.run u = drive x u)
include step

theorem bareFrame_drive_ok (h : s.pins = .ok :: ps) :
    (bareFrame [m] false).run s = ((x.apply (s.withPins ps)).emit x.event, none) := by
  show runBody [m] s = _
  simp only [runBody, step, drive_ok x h]
  rfl

theorem bareFrame_drive_fail {c : Cause} {took : Bool} (h : s.pins = .fail c took :: ps) :
    (bareFrame [m] false).run s =
      ((if took then x.apply (s.withPins ps) else s.withPins ps).emit (.failed (.drive x)), some ⟨c, s.evIdx⟩) := by
  show runBody [m] s = _
  simp only [runBody, step, drive_fail x h]
  rfl

end PinOperation

/-- Settles O9: each operation is one drive. -/
theorem pinOperationsComplete : Obligations.PinOperationsComplete := by
  intro v d s rest notBusy pins
  rw [← commandWord_setrst s.cfg.tab, ← commandWord_setdir s.cfg.tab]
  constructor
  · exact perform_frame (i := .setrst v) (p := planSetrst v) (stop_of_always rfl notBusy) rfl
      (bareFrame_drive_ok (m := .rst v) (x := .rst v) (fun _ => rfl) pins)
  · exact perform_frame (i := .setdir d) (p := planSetdir d) (stop_of_always rfl notBusy) rfl
      (bareFrame_drive_ok (m := .dir d) (x := .dir d) (fun _ => rfl) pins)

/-- PEER-ECHO does not react to a failed event (log 18). -/
theorem map_react_failed (cfg : Config) (a : PinAct) (d : Bool) (p : Option Peer) :
    p.map (Peer.react cfg (.failed a) d) = p := by
  cases p <;> rfl

/-- Settles O28: each operation is one drive, and the peer does not react to its failure. -/
theorem pinOperationFails : Obligations.PinOperationFails := by
  intro v d c took s rest notBusy pins
  rw [← commandWord_setrst s.cfg.tab, ← commandWord_setdir s.cfg.tab]
  constructor
  · refine (perform_frame_failed (i := .setrst v) (p := planSetrst v) (stop_of_always rfl notBusy) rfl
      (bareFrame_drive_fail (m := .rst v) (x := .rst v) (fun _ => rfl) pins)).trans ?_
    cases took <;>
      simp [completeErr, spoil, planSetrst, State.emit, Drive.apply, State.withPins, issueOp, map_react_failed]
  · refine (perform_frame_failed (i := .setdir d) (p := planSetdir d) (stop_of_always rfl notBusy) rfl
      (bareFrame_drive_fail (m := .dir d) (x := .dir d) (fun _ => rfl) pins)).trans ?_
    cases took <;>
      simp [completeErr, spoil, planSetdir, State.emit, Drive.apply, State.withPins, issueOp, map_react_failed]

/-- Settles O26: the guard of a transmit run on its own stops it, called or issued. -/
theorem transmitOnInputRefused : Obligations.TransmitOnInputRefused := by
  rintro i s ⟨b, form⟩ notBusy released
  have stop : (planOf s.cfg i).stop s = some .driveWhileInput := by
    rcases form with rfl | rfl <;> simp [Plan.stop, planOf, planTxbyte, planTxbyteH, notBusy, released]
  have wf : i.wellFormed = true := by rcases form with rfl | rfl <;> rfl
  exact ⟨by rw [exec_eq_perform wf, perform, stop], issue_of_stop stop⟩

/-! The pin actions of a list of steps and of a list of events (R120, R126). -/

/-- A step that asks the pin oracle: no load, no hold. -/
def Micro.isPin : Micro → Bool
  | .loadTxd _ | .clearRxd | .hold => false
  | .clk _ _ | .txBit _ | .rxBit _ | .rst _ | .dir _ => true

/-- The number of pin actions of a list of steps. -/
def pinSteps (ms : List Micro) : Nat := ms.countP Micro.isPin

/-- An event of a pin action: a hold's is none. -/
def Event.isPin : Event → Bool
  | .dly => false
  | _ => true

theorem pinSteps_append (ms ns : List Micro) : pinSteps (ms ++ ns) = pinSteps ms + pinSteps ns := List.countP_append

/-- Where a list holds more than `n` elements with `p`, it splits at the one behind `n` of them. -/
theorem exists_split_of_lt_countP {α : Type} {p : α → Bool} {l : List α} {n : Nat} (h : n < l.countP p) :
    ∃ pre a post, l = pre ++ a :: post ∧ p a = true ∧ pre.countP p = n := by
  induction l generalizing n with
  | nil => nomatch h
  | cons a l ih =>
    cases pa : p a with
    | false =>
      obtain ⟨pre, b, post, rfl, pb, rfl⟩ := ih (n := n) (by simpa [pa] using h)
      exact ⟨a :: pre, b, post, rfl, pb, by simp [pa]⟩
    | true =>
      cases n with
      | zero => exact ⟨[], a, l, rfl, pa, rfl⟩
      | succ n =>
        obtain ⟨pre, b, post, rfl, pb, rfl⟩ := ih (n := n) (by simpa [pa] using h)
        exact ⟨a :: pre, b, post, rfl, pb, by simp [pa]⟩

section Cut
variable {e : Event} (pin : e.isPin = true) (fs gs : List Event)
include pin

/-- Behind `n` pin actions stands the pin action number `n`. -/
theorem pinIndex_append : pinIndex (fs ++ e :: gs) (fs.countP Event.isPin) = fs.length := by
  induction fs with
  | nil => cases e <;> simp_all [pinIndex, Event.isPin]
  | cons f fs ih => cases f <;> simp [List.countP_cons, pinIndex, Event.isPin, ih, Nat.add_comm]

theorem cutAt_append : cutAt (fs ++ e :: gs) (fs.countP Event.isPin) = fs ++ [bang e] := by
  simp [cutAt, pinIndex_append pin]

theorem effectAt_append (took : Bool) :
    effectAt (fs ++ e :: gs) (fs.countP Event.isPin) took = fs ++ if took then [e] else [] := by
  simp [effectAt, pinIndex_append pin]

end Cut

/-- Events behind the pin action number `n` do not move where it is. -/
theorem cut_append {es : List Event} {n : Nat} (h : n < es.countP Event.isPin) (fs : List Event) (took : Bool) :
    pinIndex (es ++ fs) n = pinIndex es n ∧ cutAt (es ++ fs) n = cutAt es n ∧
      effectAt (es ++ fs) n took = effectAt es n took := by
  obtain ⟨pre, e, post, rfl, pin, rfl⟩ := exists_split_of_lt_countP h
  simp only [List.append_assoc, List.cons_append, pinIndex_append pin, cutAt_append pin, effectAt_append pin, and_self]

/-! The lines after a list of events. -/

theorem SameLines.refl (s : State) : SameLines s s := ⟨rfl, rfl, rfl, rfl⟩

theorem play_append (s : State) (es fs : List Event) : play s (es ++ fs) = play (play s es) fs := List.foldl_append

/-- An event moves the lines of two states alike. -/
theorem SameLines.playOne {s t : State} (h : SameLines s t) (e : Event) : SameLines (playOne s e) (playOne t e) := by
  obtain ⟨clk, out, oe, rst⟩ := h
  cases e with
  | clk => exact ⟨rfl, out, oe, rst⟩
  | dat => exact ⟨clk, rfl, oe, rst⟩
  | rst => exact ⟨clk, out, oe, rfl⟩
  | dir => exact ⟨clk, out, rfl, rst⟩
  | smp | dly | failed => exact ⟨clk, out, oe, rst⟩

theorem SameLines.play {s t : State} (h : SameLines s t) (es : List Event) : SameLines (play s es) (play t es) := by
  induction es generalizing s t with
  | nil => exact h
  | cons e es ih => exact ih (h.playOne e)

/-! Steps whose pin actions succeed. -/

/-- A sample's level does not depend on the answers to come. -/
theorem dataIn_withPins (s : State) (ps : List PinAnswer) :
    dataIn (s.withPins ps) = ((dataIn s).1, (dataIn s).2.withPins ps) := by
  have level : peerLevel (s.withPins ps) = peerLevel s := rfl
  have listed : (s.withPins ps).levels = s.levels := rfl
  cases oe : s.dataOe with
  | true =>
    rw [dataIn_driving oe, dataIn_driving (s := s.withPins ps) oe]
    rfl
  | false =>
    have released : (s.withPins ps).dataOe = false := oe
    simp only [dataIn, oe, released, level, listed, Bool.false_eq_true, if_false]
    cases peerLevel s with
    | some v => rfl
    | none => cases s.levels <;> rfl

theorem drive_withPins_ok (d : Drive) (s : State) (ps : List PinAnswer) :
    drive d (s.withPins (.ok :: ps)) = (((d.apply s).emit d.event).withPins ps, none) := by
  cases d <;> rfl

/-- From `s` the steps `ms`, when their pin actions succeed, leave the state `u` but for the answers to come, and the events
`es`. -/
structure Clean (ms : List Micro) (es : List Event) (s u : State) : Prop where
  run : ∀ ps, runBody ms (s.withPins (okPins (pinSteps ms) ps)) = (u.withPins ps, none)
  trace : u.trace = s.trace ++ es
  evIdx : u.evIdx = s.evIdx + es.length
  pins : es.countP Event.isPin = pinSteps ms
  lines : SameLines (play s es) u

/-- A pin action with the event `e`, whose step left `s`, failed: one event more, the line old or requested (R127), the answers
`ps` to come. -/
structure Failed (e : Event) (took : Bool) (ps : List PinAnswer) (s x : State) : Prop where
  trace : x.trace = s.trace ++ [bang e]
  evIdx : x.evIdx = s.evIdx + 1
  pins : x.pins = ps
  lines : SameLines (play s (if took then [e] else [])) x
  rxd : x.rxd = s.rxd

theorem Clean.nil (s : State) : Clean [] [] s s := ⟨fun _ => rfl, by simp, rfl, rfl, .refl s⟩

theorem Clean.append {ms ns : List Micro} {es fs : List Event} {s u w : State} (a : Clean ms es s u) (b : Clean ns fs u w) :
    Clean (ms ++ ns) (es ++ fs) s w where
  run ps := by
    rw [runBody_append, pinSteps_append, okPins_add, a.run]
    exact b.run ps
  trace := by rw [b.trace, a.trace, List.append_assoc]
  evIdx := by rw [b.evIdx, a.evIdx, List.length_append, Nat.add_assoc]
  pins := by rw [List.countP_append, a.pins, b.pins, pinSteps_append]
  lines := by
    rw [play_append]
    exact (a.lines.play fs).trans b.lines

/-- The steps alone determine the events and the state they leave. -/
theorem Clean.unique {ms : List Micro} {es fs : List Event} {s u w : State} (a : Clean ms es s u) (b : Clean ms fs s w) :
    es = fs ∧ u.withPins [] = w.withPins [] := by
  have same : u.withPins [] = w.withPins [] := congrArg Prod.fst ((a.run []).symm.trans (b.run []))
  have traces : (u.withPins []).trace = (w.withPins []).trace := congrArg State.trace same
  exact ⟨List.append_cancel_left (a.trace.symm.trans (traces.trans b.trace)), same⟩

/-- A step is clean if, alone, it ends without a failure. -/
theorem Clean.micro {m : Micro} {es : List Event} {s u : State}
    (run : ∀ ps, m.run (s.withPins (okPins (pinSteps [m]) ps)) = (u.withPins ps, none)) (trace : u.trace = s.trace ++ es)
    (evIdx : u.evIdx = s.evIdx + es.length) (pins : es.countP Event.isPin = pinSteps [m]) (lines : SameLines (play s es) u) :
    Clean [m] es s u :=
  ⟨fun ps => by simp [runBody, run ps], trace, evIdx, pins, lines⟩

/-- A load or a hold needs no answer (R126). -/
theorem silent_step {m : Micro} (h : m.isPin = false) (s : State) : ∃ es u, Clean [m] es s u := by
  cases m with
  | loadTxd b => exact ⟨[], { s with txd := b }, .micro (fun _ => rfl) (by simp) rfl rfl (.refl s)⟩
  | clearRxd => exact ⟨[], { s with rxd := 0 }, .micro (fun _ => rfl) (by simp) rfl rfl (.refl s)⟩
  | hold => exact ⟨[.dly], waitHold s, .micro (fun _ => rfl) rfl rfl rfl (.refl s)⟩
  | clk | txBit | rxBit | rst | dir => nomatch h

theorem drive_withPins_fail (d : Drive) (s : State) (c : Cause) (took : Bool) (ps : List PinAnswer) :
    ∃ x, drive d (s.withPins (.fail c took :: ps)) = (x, some c) ∧ Failed d.event took ps s x := by
  refine ⟨_, drive_fail d rfl, ?_⟩
  cases took <;> cases d <;> exact ⟨rfl, rfl, rfl, .refl _, rfl⟩

/-- A step with a pin action has one event: clean when the action succeeds, with a bang when it fails (R9, R120). -/
theorem pin_step {m : Micro} (h : m.isPin = true) (s : State) :
    ∃ e u, e.isPin = true ∧ Clean [m] [e] s u ∧
      ∀ c took ps, ∃ x, m.run (s.withPins (.fail c took :: ps)) = (x, some c) ∧ Failed e took ps s x := by
  cases m with
  | loadTxd | clearRxd | hold => nomatch h
  | clk v t =>
    refine ⟨.clk v, { ((Drive.clk v).apply { s with t := t }).emit (.clk v) with ph := v }, rfl,
      .micro (fun _ => rfl) rfl rfl rfl (.refl _), fun c took ps => ?_⟩
    obtain ⟨x, run, trace, evIdx, pins, lines, rxd⟩ := drive_withPins_fail (.clk v) { s with t := t } c took ps
    refine ⟨x, ?_, trace, evIdx, pins, ?_, rxd⟩
    · have moved : { s.withPins (.fail c took :: ps) with t := t } = State.withPins { s with t := t } (.fail c took :: ps) := rfl
      simp only [Micro.run, pinDriveClk, moved, run]
    · cases took <;> exact lines
  | txBit t =>
    exact ⟨.dat (bitAt s.txd t), _, rfl, .micro (drive_withPins_ok (.data (bitAt s.txd t)) s) rfl rfl rfl (.refl _),
      drive_withPins_fail (.data (bitAt s.txd t)) s⟩
  | rst v => exact ⟨.rst v, _, rfl, .micro (drive_withPins_ok (.rst v) s) rfl rfl rfl (.refl _), drive_withPins_fail (.rst v) s⟩
  | dir d => exact ⟨.dir d, _, rfl, .micro (drive_withPins_ok (.dir d) s) rfl rfl rfl (.refl _), drive_withPins_fail (.dir d) s⟩
  | rxBit t =>
    obtain ⟨v, lv, dr, level⟩ := dataIn_spec s
    refine ⟨.smp v, { s.emit (.smp v) with rxd := orBit s.rxd t.toNat v, levels := lv, draws := dr }, rfl,
      .micro (fun ps => ?_) rfl rfl rfl (.refl _), fun c took ps => ⟨(s.withPins ps).emit (.failed .sample), rfl, ?_⟩⟩
    · have sampled : pinSampleData (s.withPins (.ok :: ps)) =
          (State.emit (.smp v) (State.withPins { s with levels := lv, draws := dr } ps), .ok v) := by
        have asked : ask (s.withPins (.ok :: ps)) = (.ok, s.withPins ps) := rfl
        simp only [pinSampleData, asked, dataIn_withPins, level]
      have one : okPins (pinSteps [.rxBit t]) ps = .ok :: ps := rfl
      simp only [Micro.run, one, sampled]
      rfl
    · cases took <;> exact ⟨rfl, rfl, rfl, .refl s, rfl⟩

/-- Every list of steps has its clean run, from every state. -/
theorem exists_clean (ms : List Micro) (s : State) : ∃ es u, Clean ms es s u := by
  induction ms generalizing s with
  | nil => exact ⟨[], s, .nil s⟩
  | cons m ms ih =>
    have first : ∃ es u, Clean [m] es s u := by
      cases h : m.isPin with
      | false => exact silent_step h s
      | true =>
        obtain ⟨e, u, -, clean, -⟩ := pin_step h s
        exact ⟨[e], u, clean⟩
    obtain ⟨es, u, first⟩ := first
    obtain ⟨fs, w, rest⟩ := ih u
    exact ⟨es ++ fs, w, first.append rest⟩

/-- Steps that end without a failure under answers that are all ok are clean. -/
theorem exists_clean_of_run {ms : List Micro} {es : List Event} {s w : State}
    (run : runBody ms (s.withPins (okPins (pinSteps ms) [])) = (w, none)) (trace : w.trace = s.trace ++ es) :
    ∃ u, Clean ms es s u ∧ u.withPins [] = w := by
  obtain ⟨fs, u, clean⟩ := exists_clean ms s
  obtain rfl : u.withPins [] = w := congrArg Prod.fst ((clean.run []).symm.trans run)
  obtain rfl : fs = es := List.append_cancel_left (clean.trace.symm.trans trace)
  exact ⟨u, clean, rfl⟩

/-! The bits of RXD (R143). -/

/-- The step writes bit `i` of RXD when it succeeds (R143, R148). -/
def Micro.writesBit (i : Nat) : Micro → Bool
  | .clearRxd => true
  | .rxBit t => t.toNat == i
  | _ => false

theorem orBit_other {k i : Nat} (h : k ≠ i) (b : Byte) (v : Bool) : (orBit b k v).getLsbD i = b.getLsbD i := by
  have shifted : ((BitVec.ofBool v).setWidth 8 <<< k).getLsbD i = false := by
    cases v with
    | false => simp
    | true =>
      have apart : i < 8 → k ≤ i → ¬ i - k = 0 := by omega
      simpa using apart
  simp [orBit, shifted]

/-- Steps that do not write a bit of RXD leave it. -/
theorem runBody_rxd_bit {ms : List Micro} {i : Nat} (h : ms.any (Micro.writesBit i) = false) (s : State) :
    (runBody ms s).1.rxd.getLsbD i = s.rxd.getLsbD i := by
  refine runBody_preserves (P := fun u => u.rxd.getLsbD i = s.rxd.getLsbD i) (fun m hm u hu => ?_) s rfl
  have other : m.writesBit i = false := by simpa using List.any_eq_false.1 h m hm
  have kept : m.writes .rxd = false → (m.run u).1.rxd = u.rxd := fun h => Reg.Same.micro (q := .rxd) h u
  rw [← hu]
  cases m with
  | clearRxd => nomatch other
  | rxBit t =>
    have index : t.toNat ≠ i := by simpa [Micro.writesBit] using other
    have sampled : (pinSampleData u).1.rxd = u.rxd := Reg.Same.sample (q := .rxd) nofun u
    simp only [Micro.run]
    split
    · next e =>
      rw [e] at sampled
      simp only [orBit_other index]
      rw [sampled]
    · next e =>
      rw [e] at sampled
      rw [sampled]
  | loadTxd | clk | hold | txBit | rst | dir => rw [kept rfl]

theorem Clean.rxd_bit {ms : List Micro} {es : List Event} {s u : State} (clean : Clean ms es s u) {i : Nat}
    (h : ms.any (Micro.writesBit i) = false) : u.rxd.getLsbD i = s.rxd.getLsbD i := by
  have same := runBody_rxd_bit h (s.withPins (okPins (pinSteps ms) []))
  rwa [clean.run] at same

/-! A failed pin action ends a list of steps at once (R144). -/

/-- What is left in `x` of steps from `s` that would have had the events `es` and whose pin action number `n` failed. -/
structure Aborted (es : List Event) (n : Nat) (took : Bool) (ps : List PinAnswer) (s x : State) : Prop where
  trace : x.trace = s.trace ++ cutAt es n
  evIdx : x.evIdx = s.evIdx + pinIndex es n + 1
  pins : x.pins = ps
  lines : SameLines (play s (effectAt es n took)) x

/-- A bit of RXD is as it was in `s` if the steps before the failed pin action do not write it, and as it would have been at the
end if those behind them do not. -/
def CutBits (ms : List Micro) (n : Nat) (s w x : State) : Prop :=
  ∃ pre post, ms = pre ++ post ∧ pinSteps pre = n ∧
    ∀ i, (pre.any (Micro.writesBit i) = false → x.rxd.getLsbD i = s.rxd.getLsbD i) ∧
      (post.any (Micro.writesBit i) = false → x.rxd.getLsbD i = w.rxd.getLsbD i)

/-- The steps before the failed one are clean, and the failed one adds its event. -/
theorem runBody_aborts {ms : List Micro} {es : List Event} {s w : State} {n : Nat} {c : Cause} {took : Bool}
    {ps : List PinAnswer} (clean : Clean ms es s w) (hn : n < pinSteps ms) (pins : s.pins = okPins n (.fail c took :: ps)) :
    ∃ x, runBody ms s = (x, some ⟨c, s.evIdx + pinIndex es n⟩) ∧ Aborted es n took ps s x ∧ CutBits ms n s w x := by
  obtain ⟨pre, m, post, rfl, pin, count⟩ := exists_split_of_lt_countP hn
  obtain rfl : pinSteps pre = n := count
  obtain ⟨fs, v, before⟩ := exists_clean pre s
  obtain ⟨e, u, isPin, acts, fails⟩ := pin_step pin v
  obtain ⟨gs, u, behind⟩ := exists_clean post u
  obtain ⟨rfl, same⟩ := clean.unique (before.append (acts.append behind))
  obtain ⟨x, run, failed⟩ := fails c took ps
  have reached := before.run (.fail c took :: ps)
  rw [← State.eq_withPins pins] at reached
  rw [runBody_append, reached]
  simp only [runBody, run]
  have counted : pinSteps pre = fs.countP Event.isPin := before.pins.symm
  refine ⟨x, ?_, ⟨?_, ?_, failed.pins, ?_⟩, pre, m :: post, rfl, rfl, fun i => ⟨fun h => ?_, fun h => ?_⟩⟩
  · rw [counted, List.singleton_append, pinIndex_append isPin, State.withPins_evIdx, before.evIdx]
  · rw [counted, List.singleton_append, cutAt_append isPin, failed.trace, before.trace, List.append_assoc]
  · rw [counted, List.singleton_append, pinIndex_append isPin, failed.evIdx, before.evIdx]
  · rw [counted, List.singleton_append, effectAt_append isPin, play_append]
    exact (before.lines.play _).trans failed.lines
  · rw [failed.rxd, before.rxd_bit h]
  · rw [failed.rxd, ← State.withPins_rxd w [], same]
    exact ((acts.append behind).rxd_bit h).symm

/-! A failed frame lowers reset once (R162). -/

theorem lower_ok {s : State} {ps : List PinAnswer} (h : s.pins = .ok :: ps) (e : Option Failure) :
    lower e s = (((Drive.rst false).apply (s.withPins ps)).emit (.rst false), e) := by
  simp only [lower, pinDriveRst, drive_ok _ h]
  rfl

/-- The final event of a transaction is the lowering (R160, R161). -/
theorem Frame.exists_clean_of_run {f : Frame} {es : List Event} {s w : State} (closes : f.closes = true)
    (run : f.run (s.withPins (okPins (pinSteps f.body + 1) [])) = (w, none)) (trace : w.trace = s.trace ++ es) :
    ∃ fs u, Clean f.body fs s u ∧ es = fs ++ [.rst false] := by
  obtain ⟨fs, u, clean⟩ := exists_clean f.body s
  refine ⟨fs, u, clean, ?_⟩
  have body := clean.run [.ok]
  rw [show okPins (pinSteps f.body) [.ok] = okPins (pinSteps f.body + 1) [] from (okPins_add _ 1 []).symm] at body
  simp only [Frame.run, closes, if_true, body, lower_ok (s := u.withPins [.ok]) rfl, Prod.mk.injEq, and_true] at run
  have lowered : w.trace = u.trace ++ [.rst false] := by rw [← run]; rfl
  rw [trace, clean.trace, List.append_assoc] at lowered
  exact List.append_cancel_left lowered

/-- After a failure the lowering adds its event, and the first error wins whatever it answers (R162, R245). -/
theorem lower_some {s : State} {a : PinAnswer} {ps : List PinAnswer} (pins : s.pins = a :: ps) (f : Failure) :
    ∃ x, lower (some f) s = (x, some f) ∧ x.pins = ps ∧ x.evIdx = s.evIdx + 1 ∧
      (a = .ok → x.trace = s.trace ++ [.rst false] ∧ SameLines (play s [.rst false]) x) ∧
      (a ≠ .ok → x.trace = s.trace ++ [.failed (.drive (.rst false))]) := by
  cases a with
  | ok => exact ⟨_, lower_ok pins _, rfl, rfl, fun _ => ⟨rfl, .refl _⟩, fun h => absurd rfl h⟩
  | fail c took =>
    have fails := drive_fail (.rst false) pins
    refine ⟨_, by simp only [lower, pinDriveRst, fails]; rfl, ?_⟩
    cases took <;> exact ⟨rfl, rfl, nofun, fun _ => rfl⟩

/-- What is left in `x` of a transaction from `s` that would have had the events `es`, whose pin action number `n` before the
lowering failed and whose lowering was answered `a`. -/
structure Closed (es : List Event) (n : Nat) (took : Bool) (a : PinAnswer) (ps : List PinAnswer) (s x : State) : Prop where
  pins : x.pins = ps
  evIdx : x.evIdx = s.evIdx + pinIndex es n + 2
  lowered : a = .ok → x.trace = s.trace ++ cutAt es n ++ [.rst false] ∧
    SameLines (play s (effectAt es n took ++ [.rst false])) x
  stuck : a ≠ .ok → x.trace = s.trace ++ cutAt es n ++ [.failed (.drive (.rst false))]

/-- The body ends at its failed pin action, and the lowering follows. -/
theorem Frame.run_closed {f : Frame} {es : List Event} {s u : State} {n : Nat} {c : Cause} {took : Bool} {a : PinAnswer}
    {ps : List PinAnswer} (closes : f.closes = true) (clean : Clean f.body es s u) (hn : n < pinSteps f.body)
    (pins : s.pins = okPins n (.fail c took :: a :: ps)) :
    ∃ x, f.run s = (x, some ⟨c, s.evIdx + pinIndex (es ++ [.rst false]) n⟩) ∧
      Closed (es ++ [.rst false]) n took a ps s x := by
  obtain ⟨index, cut, effect⟩ := cut_append (clean.pins ▸ hn) [.rst false] took
  obtain ⟨v, body, aborted, -⟩ := runBody_aborts clean hn pins
  obtain ⟨x, run, left, counted, ok, fails⟩ := lower_some aborted.pins ⟨c, s.evIdx + pinIndex es n⟩
  refine ⟨x, by simp only [Frame.run, closes, if_true, body, run, index], left, ?_, fun h => ?_, fun h => ?_⟩
  · rw [counted, aborted.evIdx, index]
  · obtain ⟨trace, lines⟩ := ok h
    rw [cut, effect, play_append, ← aborted.trace]
    exact ⟨trace, (aborted.lines.play _).trans lines⟩
  · rw [cut, ← aborted.trace]
    exact fails h

/-! An operation of one transaction that fails (R242). -/

/-- The operation is the one transaction `f`, with no guard left to stop it. -/
structure Transacts (cfg : Config) (i : Instr) (f : Frame) : Prop where
  wellFormed : i.wellFormed = true
  guard : (planOf cfg i).guard = .always
  frames : (planOf cfg i).frames = [f]
  kind : (planOf cfg i).kind = .protocolAborted

theorem WritesFrame.transacts {cfg : Config} {i : Instr} {cmd dat : Byte} (h : WritesFrame cfg i cmd dat) :
    Transacts cfg i (writeFrame cmd dat) := by
  rcases h with rfl | ⟨k, f1, f0, tens, ones, rfl, domain, rfl, rfl⟩ | ⟨k, rfl, rfl⟩
  · exact ⟨rfl, rfl, rfl, rfl⟩
  · exact ⟨domain, domainGuard_of_inDomain domain, by rw [← encodeFields_eq_packed domain]; rfl, rfl⟩
  · cases k <;> exact ⟨rfl, rfl, rfl, rfl⟩

theorem ReadsFrame.transacts {cfg : Config} {i : Instr} {cmd : Byte} (h : ReadsFrame cfg i cmd) :
    Transacts cfg i (readFrame cmd) := by
  rcases h with rfl | ⟨k, rfl, rfl⟩ | ⟨k, rfl, rfl⟩
  · exact ⟨rfl, rfl, rfl, rfl⟩
  · exact ⟨rfl, rfl, rfl, rfl⟩
  · cases k <;> exact ⟨rfl, rfl, rfl, rfl⟩

/-- A transaction whose pin action number `n` before its lowering fails. -/
theorem Transacts.fails {i : Instr} {f : Frame} {es : List Event} {s w : State} {n : Nat} {c : Cause} {took : Bool}
    {a : PinAnswer} {ps : List PinAnswer} (h : Transacts s.cfg i f) (closes : f.closes = true) (notBusy : s.status.busy = false)
    (hn : n < pinSteps f.body) (pins : s.pins = okPins n (.fail c took :: a :: ps))
    (run : f.run ((issueOp (commandWord s.cfg.tab i) s).withPins (okPins (pinSteps f.body + 1) [])) = (w, none))
    (trace : w.trace = s.trace ++ es) :
    ∃ t, exec i s = .next t ∧ t.status = Status.failed .protocolAborted ⟨c, pinIndex es n⟩ ∧ t.pins = ps ∧
      t.evIdx = pinIndex es n + 2 ∧
      (a = .ok → t.trace = s.trace ++ cutAt es n ++ [.rst false] ∧ SameLines (play s (effectAt es n took ++ [.rst false])) t) ∧
      (a ≠ .ok → t.trace = s.trace ++ cutAt es n ++ [.failed (.drive (.rst false))]) := by
  obtain ⟨fs, u, clean, rfl⟩ := Frame.exists_clean_of_run closes run trace
  obtain ⟨x, ran, closed⟩ := Frame.run_closed closes clean hn pins
  have done := perform_frame_failed (i := i) (stop_of_always h.guard notBusy) h.frames ran
  refine ⟨_, (exec_eq_perform h.wellFormed s).trans done, ?_, ?_, ?_, fun ok => ?_, fun fails => ?_⟩
  · simp only [completeErr_status, h.kind, issueOp_evIdx, Nat.zero_add]
  · rw [completeErr_pins, closed.pins]
  · simpa using closed.evIdx
  · obtain ⟨trace, lines⟩ := closed.lowered ok
    have issued : SameLines s (issueOp (commandWord s.cfg.tab i) s) := .refl s
    exact ⟨by simpa using trace, ((issued.play _).trans lines).trans (completeErr_lines ..)⟩
  · simpa using closed.stuck fails

/-- Settles O31: 50 pin actions stand before the lowering of a write frame. -/
theorem writeTransactionFails : Obligations.WriteTransactionFails := by
  intro i cmd dat n c took a s rest writes notBusy hn pins
  exact writes.transacts.fails rfl notBusy hn pins (writeFrame_ok cmd dat rfl) rfl

/-- Settles O33: 51 pin actions stand before the lowering of a read frame, and the samples behind the failed one are free. -/
theorem readTransactionFails : Obligations.ReadTransactionFails := by
  intro i cmd n c took a s rest reads notBusy hn pins
  obtain ⟨b, lv, dr, run⟩ := readFrame_ok (s := (issueOp (commandWord s.cfg.tab i) s).withPins (okPins 52 [])) cmd rfl
  obtain ⟨t, fails⟩ := reads.transacts.fails rfl notBusy hn pins run rfl
  exact ⟨t, b, fails⟩

/-! A run on its own that fails (R144, R146 to R149). -/

/-- A run on its own whose cycles begin in `u`, with the trace and the lines of `s`, and end in `x` by a failure. -/
theorem perform_run_failed {i : Instr} {p : Plan} {body : List Micro} {reads : Bool} {es : List Event} {s u x : State} {n : Nat}
    {c : Cause} {took : Bool} {ps : List PinAnswer} (stop : p.stop s = none) (kind : p.kind = .protocolAborted)
    (frames : p.frames = [bareFrame body reads])
    (run : runBody body (issueOp (commandWord s.cfg.tab i) s) = (x, some ⟨c, pinIndex es n⟩))
    (aborted : Aborted es n took ps u x) (lines : SameLines s u) (trace : u.trace = s.trace) :
    ∃ t, perform i p s = .next t ∧ t.status = Status.failed .protocolAborted ⟨c, pinIndex es n⟩ ∧
      t.trace = s.trace ++ cutAt es n ∧ SameLines (play s (effectAt es n took)) t ∧ t.rxd = x.rxd ∧ t.pins = ps := by
  refine ⟨_, perform_frame_failed stop frames run, ?_, ?_, ?_, completeErr_rxd .., ?_⟩
  · rw [completeErr_status, kind]
  · rw [completeErr_trace, aborted.trace, trace]
  · exact ((lines.play _).trans aborted.lines).trans (completeErr_lines ..)
  · rw [completeErr_pins, aborted.pins]

/-- Settles O29: the events cut are those of the run that completes. -/
theorem transmitFails : Obligations.TransmitFails := by
  intro src n c took s rest notBusy out hn pins
  have fails : ∀ (i : Instr) (pol : Bool), i = .txbyte src ∨ i = .txbyteH src →
      (planOf s.cfg i).frames = [bareFrame (.loadTxd src :: engine pol .txBit) false] → ∃ t, exec i s = .next t ∧
        t.status = Status.failed .protocolAborted ⟨c, pinIndex (transmitTrace pol src) n⟩ ∧
        t.trace = s.trace ++ cutAt (transmitTrace pol src) n ∧
        SameLines (play s (effectAt (transmitTrace pol src) n took)) t ∧ t.pins = rest ∧ t.res = s.res := by
    intro i pol form frames
    have wf : i.wellFormed = true := by rcases form with rfl | rfl <;> rfl
    have kind : (planOf s.cfg i).kind = .protocolAborted := by rcases form with rfl | rfl <;> rfl
    have loaded : SameLines s { issueOp (commandWord s.cfg.tab i) s with txd := src } := .refl s
    have count : pinSteps (engine pol .txBit) = 24 := by cases pol <;> rfl
    obtain ⟨u, clean, -⟩ := exists_clean_of_run (ms := engine pol .txBit)
      (s := { issueOp (commandWord s.cfg.tab i) s with txd := src }) (es := transmitTrace pol src)
      (runBody_transmit pol (r := []) (by rw [count]; rfl)) rfl
    obtain ⟨x, run, aborted, -⟩ := runBody_aborts clean (count ▸ hn) pins
    rw [issueOp_evIdx, Nat.zero_add] at run
    obtain ⟨t, done, status, trace, lines, -, left⟩ := perform_run_failed (i := i) (planOf_stop wf notBusy fun _ => out) kind
      frames run aborted loaded rfl
    have next : exec i s = .next t := (exec_eq_perform wf s).trans done
    obtain ⟨-, -, res, -⟩ := transmitFrame src s t (by rcases form with rfl | rfl; exacts [.inl next, .inr next])
    exact ⟨t, next, status, trace, lines, left, res⟩
  exact ⟨fails (.txbyte src) true (.inl rfl) rfl, fails (.txbyteH src) false (.inr rfl) rfl⟩

/-- A list of the steps of a receive run from its start has written the bits below a third of its pin actions, the sample
counted early where it stands between the clock drives, and the steps behind it write the others (R140, R141). -/
theorem engine_writesBit (pol : Bool) : ∀ j < 41, ∀ i < 8,
    if i < (pinSteps ((engine pol .rxBit).take j) + if pol then 1 else 0) / 3
    then ((engine pol .rxBit).drop j).any (Micro.writesBit i) = false
    else ((engine pol .rxBit).take j).any (Micro.writesBit i) = false := by
  revert pol
  decide

/-- Where a receive run was cut, RXD holds the bits sampled before (R144). -/
theorem CutBits.rxd {pol : Bool} {n : Nat} {s w x : State} (h : CutBits (engine pol .rxBit) n s w x) (h0 : s.rxd = 0) :
    x.rxd = BitVec.ofNat 8 (w.rxd.toNat % 2 ^ ((n + if pol then 1 else 0) / 3)) := by
  obtain ⟨pre, post, split, rfl, bits⟩ := h
  have length : pre.length < 41 := by
    have total : (engine pol .rxBit).length = 40 := by cases pol <;> rfl
    rw [split, List.length_append] at total
    omega
  refine BitVec.eq_of_getLsbD_eq fun i hi => ?_
  obtain ⟨first, last⟩ := bits i
  have writes := engine_writesBit pol pre.length length i hi
  rw [split, List.take_left, List.drop_left] at writes
  rw [BitVec.getLsbD_ofNat, Nat.testBit_mod_two_pow]
  by_cases below : i < (pinSteps pre + if pol then 1 else 0) / 3
  · rw [if_pos below] at writes
    rw [last writes]
    simp [hi, below]
    rfl
  · rw [if_neg below] at writes
    rw [first writes, h0]
    simp [below]

/-- Settles O30: the events cut are those of the run that completes. -/
theorem receiveFails : Obligations.ReceiveFails := by
  intro b n c took s rest lv notBusy hn pins released peer levels
  have fails : ∀ (i : Instr) (pol : Bool), i.wellFormed = true → (planOf s.cfg i).guard = .always →
      (planOf s.cfg i).kind = .protocolAborted →
      (planOf s.cfg i).frames = [bareFrame (.clearRxd :: engine pol .rxBit) true] → ∃ t, exec i s = .next t ∧
        t.status = Status.failed .protocolAborted ⟨c, pinIndex (receiveTrace pol b) n⟩ ∧
        t.trace = s.trace ++ cutAt (receiveTrace pol b) n ∧
        SameLines (play s (effectAt (receiveTrace pol b) n took)) t ∧
        t.rxd = BitVec.ofNat 8 (b.toNat % 2 ^ ((n + if pol then 1 else 0) / 3)) ∧ t.pins = rest := by
    intro i pol wf guard kind frames
    have count : pinSteps (engine pol .rxBit) = 24 := by cases pol <;> rfl
    obtain ⟨lv', dr, completes, -⟩ := runBody_receive (shows_listing pol b lv s.draws)
      (s := (receiving (commandWord s.cfg.tab i) s).withPins (okPins 24 [])) rfl rfl ⟨released, peer, levels, rfl⟩ []
    rw [List.append_nil, ← count] at completes
    obtain ⟨w, clean, ends⟩ := exists_clean_of_run completes (es := receiveTrace pol b) rfl
    obtain ⟨x, run, aborted, cut⟩ := runBody_aborts clean (count ▸ hn) pins
    have byte : (w.withPins []).rxd = b := by rw [ends]; rfl
    have partly : x.rxd = BitVec.ofNat 8 (b.toNat % 2 ^ ((n + if pol then 1 else 0) / 3)) := byte ▸ cut.rxd rfl
    have idle : SameLines s (receiving (commandWord s.cfg.tab i) s) := .refl s
    have zero : (receiving (commandWord s.cfg.tab i) s).evIdx = 0 := rfl
    rw [zero, Nat.zero_add] at run
    obtain ⟨t, done, status, trace, lines, rxd, left⟩ := perform_run_failed (i := i) (stop_of_always guard notBusy) kind frames
      run aborted idle rfl
    exact ⟨t, (exec_eq_perform wf s).trans done, status, trace, lines, rxd.trans partly, left⟩
  exact ⟨fails .rxbyte false rfl rfl rfl rfl, fails .rxbyteL true rfl rfl rfl rfl⟩

end Sys2Proof.Machine

/-! PROOFS. The family of spec/41_byte_engine.md: the two receive runs on their own, whatever drives the line (R143, R148,
R149). The samples show some levels, and those make the byte. -/

namespace Sys2Proof.Machine

/-- A receive cycle with three successful pin actions samples some level into its bit (R143). -/
theorem runBody_receiveCycle {s : State} {r : List PinAnswer} (pol : Bool) (t : BitVec 3) (h : s.pins = okPins 3 r)
    (ms : List Micro) :
    ∃ v lv dr, runBody (cycle pol .rxBit t ++ ms) s =
      runBody ms (listened (cycleEvents pol (.smp v)) 5 t r (orBit s.rxd t.toNat v) lv dr s) := by
  obtain ⟨v, lv, dr, level⟩ := dataIn_spec (beforeAction pol t (answersBehind pol r) s)
  have asked : ask (beforeAction pol t (.ok :: answersBehind pol r) s) =
      (.ok, beforeAction pol t (answersBehind pol r) s) := by
    cases pol <;> rfl
  refine ⟨v, lv, dr, runBody_cycle h ?_ ms⟩
  simp only [Micro.run, pinSampleData, asked, level]
  cases pol <;> rfl

/-- Receive cycles one after another sample a level each, by induction on their list. -/
theorem runBody_receiveCycles {s : State} {r : List PinAnswer} (pol : Bool) (t : BitVec 3) (ts : List (BitVec 3))
    (h : s.pins = okPins (3 * (ts.length + 1)) r) (ms : List Micro) :
    ∃ v vs lv dr, vs.length = ts.length ∧ runBody ((t :: ts).flatMap (cycle pol .rxBit) ++ ms) s =
      runBody ms (listened ((v :: vs).flatMap fun v => cycleEvents pol (.smp v)) (5 * (ts.length + 1))
        ((t :: ts).getLast (by simp)) r
        (((t :: ts).zip (v :: vs)).foldl (fun x tv => orBit x tv.1.toNat tv.2) s.rxd) lv dr s) := by
  induction ts generalizing t s with
  | nil =>
    obtain ⟨v, lv, dr, run⟩ := runBody_receiveCycle pol t h ms
    exact ⟨v, [], lv, dr, rfl, by simpa using run⟩
  | cons t' ts ih =>
    have pins : s.pins = okPins 3 (okPins (3 * (ts.length + 1)) r) := by
      rw [h, ← okPins_add, List.length_cons]
      congr 1
      omega
    obtain ⟨v, lv, dr, first⟩ := runBody_receiveCycle pol t pins ((t' :: ts).flatMap (cycle pol .rxBit) ++ ms)
    obtain ⟨v', vs, lv', dr', count, others⟩ := ih t'
      (listened_pins (cycleEvents pol (.smp v)) 5 t _ (orBit s.rxd t.toNat v) lv dr s)
    refine ⟨v, v' :: vs, lv', dr', by simp [count], ?_⟩
    rw [List.flatMap_cons, List.append_assoc, first, others, listened_listened]
    simp [Nat.mul_add, Nat.add_comm]

theorem receiveTrace_eq_flatMap_bitsOf (pol : Bool) (b : Byte) :
    receiveTrace pol b = (bitsOf b).flatMap fun v => cycleEvents pol (.smp v) := by
  cases pol <;> rfl

/-- A receive run from RXD = 0 receives some byte, the one its samples show. -/
theorem runBody_receive_some {s : State} {r : List PinAnswer} (pol : Bool) (h : s.pins = okPins 24 r) (h0 : s.rxd = 0)
    (ms : List Micro) :
    ∃ b lv dr, runBody (engine pol .rxBit ++ ms) s = runBody ms (listened (receiveTrace pol b) 40 7 r b lv dr s) := by
  obtain ⟨v0, vs, lv, dr, count, run⟩ := runBody_receiveCycles pol 0 [1, 2, 3, 4, 5, 6, 7] h ms
  match vs, count, run with
  | [v1, v2, v3, v4, v5, v6, v7], _, run =>
    refine ⟨byteOf v0 v1 v2 v3 v4 v5 v6 v7, lv, dr, ?_⟩
    rw [receiveTrace_eq_flatMap_bitsOf, bitsOf_byteOf, ← byteOf_orBits, ← h0]
    exact run

/-- An operation that is one receive run delivers the byte its samples show to RXD and RES (R148, R149). -/
theorem perform_receive_some {i : Instr} {p : Plan} {pol : Bool} {s : State} {r : List PinAnswer} (stop : p.stop s = none)
    (frames : p.frames = [bareFrame (.clearRxd :: engine pol .rxBit) true]) (result : p.result = .res)
    (pins : s.pins = okPins 24 r) :
    ∃ b lv dr, perform i p s = .next (rxDone (commandWord s.cfg.tab i) b (receiveTrace pol b) r lv dr s) := by
  obtain ⟨b, lv, dr, run⟩ := runBody_receive_some pol (s := receiving (commandWord s.cfg.tab i) s) pins rfl []
  rw [List.append_nil] at run
  refine ⟨b, lv, dr, ?_⟩
  rw [perform_frame stop frames run]
  simp [completeOk, deliver, result, rxDone, listened, heard, lastLevel_receiveTrace, issueOp, receiving]

/-- Settles O11: the two receive runs differ in the polarity alone. -/
theorem receiveCompletes : Obligations.ReceiveCompletes := by
  intro s rest notBusy pins
  rw [← commandWord_rxbyte s.cfg.tab, ← commandWord_rxbyteL s.cfg.tab]
  exact ⟨perform_receive_some (i := .rxbyte) (p := planRxbyte) (pol := false) (stop_of_always rfl notBusy) rfl rfl pins,
    perform_receive_some (i := .rxbyteL) (p := planRxbyteL) (pol := true) (stop_of_always rfl notBusy) rfl rfl pins⟩

end Sys2Proof.Machine

/-! PROOFS. The family of spec/42_transactions.md: the two sequences of transactions (R220, R223), and a transaction, on its own or
in a sequence, of which a pin action fails (R162, R163, R222, R224). -/

namespace Sys2Proof.Machine

/-! Transactions one after another (R220, R223). -/

/-- The transaction of a command and a data byte: a read receives its data byte, so its frame does not name it (R160, R161). -/
def transaction : Bool → Byte × Byte → Frame
  | true, x => readFrame x.1
  | false, x => writeFrame x.1 x.2

/-- The events of a whole transaction with its data byte, written or received. -/
def transactionTrace : Bool → Byte × Byte → List Event
  | true, x => readTrace x.1 x.2
  | false, x => writeTrace x.1 x.2

/-- The byte a transaction drives last. -/
def drivenByte : Bool → Byte × Byte → Byte
  | true, x => x.1
  | false, x => x.2

/-- The transaction `x` happens as `y`: a write with its data byte, a read with the byte it receives. -/
def Carries (reads : Bool) (x y : Byte × Byte) : Prop := y.1 = x.1 ∧ (reads = false → y = x)

theorem Carries.refl (reads : Bool) (x : Byte × Byte) : Carries reads x x := ⟨rfl, fun _ => rfl⟩

/-- The lines and the engine's registers as the whole transaction `x` leaves them (R164). -/
def afterTransaction (reads : Bool) (s : State) (x : Byte × Byte) : State :=
  { s with
    clk := true, dataOut := (drivenByte reads x).getLsbD 7, dataOe := !reads, rst := false, txd := drivenByte reads x
    rxd := if reads then x.2 else s.rxd, t := 7, ph := true, dly := 0 }

/-- The state after the transactions `xs`, none of which failed: the last sets the lines, and only reads take something from
the environment. -/
def transacted (reads : Bool) (xs : List (Byte × Byte)) (r : List PinAnswer) (lv : List Bool) (dr : Nat) (s : State) : State :=
  { xs.getLast?.elim s (afterTransaction reads s) with
    evIdx := s.evIdx + (xs.flatMap (transactionTrace reads)).length, pins := r
    trace := s.trace ++ xs.flatMap (transactionTrace reads)
    levels := if reads then lv else s.levels, draws := if reads then dr else s.draws
    peer := s.peer.map (Peer.hear s.cfg s.dataOut (xs.flatMap (transactionTrace reads))) }

section Transacted
variable (reads : Bool) (x : Byte × Byte) (xs : List (Byte × Byte)) (r q : List PinAnswer) (lv mv : List Bool) (dr er : Nat)
  (s : State)

theorem transactionTrace_length : (transactionTrace reads x).length = 83 + reads.toNat := by
  cases reads <;> rfl

theorem transactionsTrace_length : (xs.flatMap (transactionTrace reads)).length = (83 + reads.toNat) * xs.length := by
  simp [List.length_flatMap, transactionTrace_length, Nat.mul_comm]

theorem lastLevel_transactionTrace (d : Bool) : lastLevel d (transactionTrace reads x) = (drivenByte reads x).getLsbD 7 := by
  cases reads <;> rfl

theorem transacted_evIdx : (transacted reads xs r lv dr s).evIdx = s.evIdx + (83 + reads.toNat) * xs.length := by
  rw [← transactionsTrace_length]
  rfl

theorem transacted_nil : transacted reads [] s.pins s.levels s.draws s = s := by
  cases peer : s.peer <;> simp [transacted, Peer.hear]

theorem transacted_of_getLast? (last : xs.getLast? = some x) :
    transacted reads xs r lv dr s =
      { afterTransaction reads s x with
        evIdx := s.evIdx + (83 + reads.toNat) * xs.length, pins := r
        trace := s.trace ++ xs.flatMap (transactionTrace reads)
        levels := if reads then lv else s.levels, draws := if reads then dr else s.draws
        peer := s.peer.map (Peer.hear s.cfg s.dataOut (xs.flatMap (transactionTrace reads))) } := by
  rw [transacted, last, transactionsTrace_length]
  rfl

theorem transacted_singleton :
    transacted reads [x] r lv dr s =
      { afterTransaction reads s x with
        evIdx := s.evIdx + (83 + reads.toNat), pins := r, trace := s.trace ++ transactionTrace reads x
        levels := if reads then lv else s.levels, draws := if reads then dr else s.draws
        peer := s.peer.map (Peer.hear s.cfg s.dataOut (transactionTrace reads x)) } := by
  rw [transacted_of_getLast? reads x [x] r lv dr s rfl, List.flatMap_singleton, List.length_singleton, Nat.mul_one]

/-- The transactions behind the first begin at the level it left on DATA_OUT, so the peer hears one list of events. -/
theorem transacted_cons :
    transacted reads xs q mv er (transacted reads [x] r lv dr s) = transacted reads (x :: xs) q mv er s := by
  have level := lastLevel_transactionTrace reads x
  cases xs <;> cases reads <;> cases peer : s.peer <;>
    simp [transacted, afterTransaction, List.getLast?_cons, hear_append, level, Nat.add_assoc, Peer.hear, peer]

end Transacted

section Whole
variable {reads : Bool} {s : State} {r : List PinAnswer}

/-- A transaction in which every pin action succeeds, whatever drives the line. -/
theorem transaction_ok (x : Byte × Byte) (h : s.pins = okPins (51 + reads.toNat) r) :
    ∃ y lv dr, Carries reads x y ∧ (transaction reads x).run s = (transacted reads [y] r lv dr s, none) := by
  cases reads with
  | false =>
    refine ⟨x, s.levels, s.draws, .refl _ _, (writeFrame_ok x.1 x.2 h).trans ?_⟩
    rw [transacted_singleton]
    rfl
  | true =>
    obtain ⟨b, lv, dr, run⟩ := readFrame_ok x.1 h
    refine ⟨(x.1, b), lv, dr, ⟨rfl, nofun⟩, run.trans ?_⟩
    rw [transacted_singleton]
    rfl

/-- Transactions in which every pin action succeeds, by induction on their list; the reads deliver their bytes in order. -/
theorem runFrames_transactions (xs : List (Byte × Byte)) (got : List Byte)
    (h : s.pins = okPins ((51 + reads.toNat) * xs.length) r) :
    ∃ ys lv dr, List.Forall₂ (Carries reads) xs ys ∧ runFrames (xs.map (transaction reads)) got s =
      (transacted reads ys r lv dr s, .ok (got ++ if reads then ys.map Prod.snd else [])) := by
  induction xs generalizing got s with
  | nil =>
    obtain rfl : s.pins = r := by simpa [okPins] using h
    exact ⟨[], s.levels, s.draws, .nil, by simp [transacted_nil, runFrames]⟩
  | cons x xs ih =>
    obtain ⟨q, next⟩ : ∃ q, q = okPins ((51 + reads.toNat) * xs.length) r := ⟨_, rfl⟩
    have pins : s.pins = okPins (51 + reads.toNat) q := by
      rw [h, next, ← okPins_add, List.length_cons, Nat.mul_succ, Nat.add_comm]
    obtain ⟨y, lv, dr, carries, run⟩ := transaction_ok x pins
    obtain ⟨ys, mv, er, others, rest⟩ := ih (s := transacted reads [y] q lv dr s) (got ++ if reads then [y.2] else []) next
    refine ⟨y :: ys, mv, er, .cons carries others, ?_⟩
    have received : collect (transaction reads x).reads got (transacted reads [y] q lv dr s) =
        got ++ if reads then [y.2] else [] := by
      rw [transacted_singleton]
      cases reads with
      | false => exact (List.append_nil got).symm
      | true => rfl
    simp only [List.map_cons, runFrames, run, received, rest, transacted_cons]
    cases reads <;> simp

end Whole

/-! The two sequences, completed (R220, R223). -/

theorem writesTrace_eq (ws : List (Byte × Byte)) : writesTrace ws = ws.flatMap (transactionTrace false) := rfl

theorem readsTrace_eq (rs : List (Byte × Byte)) : readsTrace rs = rs.flatMap (transactionTrace true) := rfl

theorem forall₂_carries_false {xs ys : List (Byte × Byte)} (h : List.Forall₂ (Carries false) xs ys) : ys = xs := by
  induction h with
  | nil => rfl
  | cons carries _ ih => rw [carries.2 rfl, ih]

theorem forall₂_carries_cmd {reads : Bool} {xs ys : List (Byte × Byte)} (h : List.Forall₂ (Carries reads) xs ys) :
    ys.map Prod.fst = xs.map Prod.fst := by
  induction h with
  | nil => rfl
  | cons carries _ ih => rw [List.map_cons, List.map_cons, carries.1, ih]

/-- Seven transactions with the read codes of RDTIMER are its reads with some bytes received (R223). -/
theorem exists_timerPairs {c : Config} {g : TimeRegs} {ys : List (Byte × Byte)}
    (h : List.Forall₂ (Carries true) (timerPairs c g) ys) : ∃ g', timerPairs c g' = ys := by
  match ys, h.length_eq, forall₂_carries_cmd h with
  | [(c0, b0), (c1, b1), (c2, b2), (c3, b3), (c4, b4), (c5, b5), (c6, b6)], _, cmds =>
    obtain ⟨rfl, rfl, rfl, rfl, rfl, rfl, rfl⟩ : c0 = c.tab.sec.rd ∧ c1 = c.tab.min.rd ∧ c2 = c.tab.hour.rd ∧
      c3 = c.tab.date.rd ∧ c4 = c.tab.month.rd ∧ c5 = c.tab.year.rd ∧ c6 = c.tab.day.rd := by simpa [timerPairs] using cmds
    exact ⟨⟨b0, b1, b2, b3, b4, b5, b6⟩, rfl⟩

theorem commandWord_rsttimer (tab : CmdTab) : commandWord tab .rsttimer = 0x80000000 :=
  show (Parts.mk 0x8 0 0 0 0).toWord = 0x80000000 by decide

theorem commandWord_rdtimer (tab : CmdTab) : commandWord tab .rdtimer = 0x90000000 :=
  show (Parts.mk 0x9 0 0 0 0).toWord = 0x90000000 by decide

theorem planRsttimer_frames (c : Config) : (planRsttimer c).frames = (timerWrites c).map (transaction false) := rfl

/-- The frames of RDTIMER do not name the bytes it receives. -/
theorem planRdtimer_frames (c : Config) (g : TimeRegs) :
    (planRdtimer c).frames = (timerPairs c g).map (transaction true) := rfl

/-- Settles O22: RSTTIMER is its eleven write frames. -/
theorem resetTimerCompletes : Obligations.ResetTimerCompletes := by
  intro s rest notBusy pins
  obtain ⟨ys, lv, dr, carries, run⟩ := runFrames_transactions (reads := false) (r := rest)
    (s := issueOp (commandWord s.cfg.tab .rsttimer) s) (timerWrites s.cfg) [] pins
  obtain rfl := forall₂_carries_false carries
  have last : (timerWrites s.cfg).getLast? = some (s.cfg.tab.wp.wr, 0x80) := rfl
  have count : (timerWrites s.cfg).length = 11 := rfl
  refine perform_next.2 ⟨stop_of_always rfl notBusy, ?_⟩
  rw [planRsttimer_frames, run, transacted_of_getLast? _ _ _ _ _ _ _ last]
  simp [complete, completeOk, deliver, planRsttimer, afterTransaction, drivenByte, issueOp, commandWord_rsttimer, count,
    writesTrace_eq]

/-- Settles O23: RDTIMER is its seven read frames, and `timeRegsOf` puts their bytes in order. -/
theorem readTimerCompletes : Obligations.ReadTimerCompletes := by
  intro s rest notBusy pins
  obtain ⟨ys, lv, dr, carries, run⟩ := runFrames_transactions (reads := true) (r := rest)
    (s := issueOp (commandWord s.cfg.tab .rdtimer) s) (timerPairs s.cfg tregZero) [] pins
  obtain ⟨g, rfl⟩ := exists_timerPairs carries
  have last : (timerPairs s.cfg g).getLast? = some (s.cfg.tab.day.rd, g.day) := rfl
  have count : (timerPairs s.cfg g).length = 7 := rfl
  have bytes : timeRegsOf ((timerPairs s.cfg g).map Prod.snd) = g := rfl
  refine ⟨g, lv, dr, perform_next.2 ⟨stop_of_always rfl notBusy, ?_⟩⟩
  rw [planRdtimer_frames s.cfg tregZero, run, transacted_of_getLast? _ _ _ _ _ _ _ last]
  simp [complete, completeOk, deliver, planRdtimer, afterTransaction, drivenByte, issueOp, commandWord_rdtimer, count,
    readsTrace_eq, bytes]

/-! A transaction that fails, at a pin action before its lowering or at the lowering alone (R162, R163). -/

theorem Clean.drive_rst (v : Bool) (s : State) : ∃ u, Clean [.rst v] [.rst v] s u :=
  ⟨_, .micro (drive_withPins_ok (.rst v) s) rfl rfl rfl (.refl _)⟩

/-- A body without a failure leaves the lowering to be the last step of one list. -/
theorem Frame.run_eq_runBody {f : Frame} {s u : State} (closes : f.closes = true) (body : runBody f.body s = (u, none)) :
    f.run s = runBody (f.body ++ [.rst false]) s := by
  have drives : Micro.run (.rst false) u = pinDriveRst false u := rfl
  simp only [Frame.run, closes, if_true, body, runBody_append, runBody, lower, drives]
  rcases pinDriveRst false u with ⟨v, _ | c⟩ <;> rfl

/-- Where only the lowering fails, it is the pin action behind those of the body (R163). -/
theorem Frame.run_unlowered {f : Frame} {es : List Event} {s u : State} {c : Cause} {took : Bool} {ps : List PinAnswer}
    (closes : f.closes = true) (clean : Clean f.body es s u) (pins : s.pins = okPins (pinSteps f.body) (.fail c took :: ps)) :
    ∃ x, f.run s = (x, some ⟨c, s.evIdx + pinIndex (es ++ [.rst false]) (pinSteps f.body)⟩) ∧
      Aborted (es ++ [.rst false]) (pinSteps f.body) took ps s x := by
  obtain ⟨w, lowers⟩ := Clean.drive_rst false u
  have body := clean.run (.fail c took :: ps)
  rw [← State.eq_withPins pins] at body
  have before : pinSteps f.body < pinSteps (f.body ++ [.rst false]) := by
    rw [pinSteps_append]
    exact Nat.lt_succ_self _
  obtain ⟨x, run, aborted, -⟩ := runBody_aborts (clean.append lowers) before pins
  exact ⟨x, (Frame.run_eq_runBody closes body).trans run, aborted⟩

section Fails
variable {reads : Bool} {s : State} {n : Nat} {c : Cause} {took : Bool} {a : PinAnswer} {ps : List PinAnswer}

theorem transaction_closes (x : Byte × Byte) : (transaction reads x).closes = true := by
  cases reads <;> rfl

theorem pinSteps_transaction (x : Byte × Byte) : pinSteps (transaction reads x).body = 50 + reads.toNat := by
  cases reads <;> rfl

/-- The body of a transaction has its events but the lowering. -/
theorem transaction_clean (x : Byte × Byte) (s : State) :
    ∃ y es u, Carries reads x y ∧ Clean (transaction reads x).body es s u ∧
      transactionTrace reads y = es ++ [.rst false] := by
  obtain ⟨y, lv, dr, carries, run⟩ := transaction_ok (reads := reads) (s := s.withPins (okPins (51 + reads.toNat) [])) x rfl
  rw [show 51 + reads.toNat = pinSteps (transaction reads x).body + 1 by rw [pinSteps_transaction]; omega] at run
  obtain ⟨es, u, clean, split⟩ := Frame.exists_clean_of_run (transaction_closes x) run
    (es := transactionTrace reads y) (by rw [transacted_singleton]; rfl)
  exact ⟨y, es, u, carries, clean, split⟩

/-- Before its lowering, a failed pin action ends the body and the lowering follows (R162). -/
theorem transaction_closed (x : Byte × Byte) (hn : n < 50 + reads.toNat) (pins : s.pins = okPins n (.fail c took :: a :: ps)) :
    ∃ y v, Carries reads x y ∧ (transaction reads x).run s = (v, some ⟨c, s.evIdx + pinIndex (transactionTrace reads y) n⟩) ∧
      Closed (transactionTrace reads y) n took a ps s v := by
  obtain ⟨y, es, u, carries, clean, split⟩ := transaction_clean (reads := reads) x s
  rw [← pinSteps_transaction x] at hn
  obtain ⟨v, run, closed⟩ := Frame.run_closed (transaction_closes x) clean hn pins
  rw [← split] at run closed
  exact ⟨y, v, carries, run, closed⟩

/-- A transaction raises RST first, lowers it last and does not move it between. -/
theorem transactionTrace_split (reads : Bool) (y : Byte × Byte) :
    ∃ es, transactionTrace reads y = es ++ [.rst false] ∧ es.countP Event.isPin = 50 + reads.toNat ∧
      ∀ s, (play s es).rst = true := by
  cases reads with
  | false => exact ⟨[.rst true, .dir .out] ++ txTrace y.1 ++ txTrace y.2, rfl, rfl, fun _ => rfl⟩
  | true => exact ⟨[.rst true, .dir .out] ++ txTrace y.1 ++ [.dir .inp] ++ rxTrace y.2, rfl, rfl, fun _ => rfl⟩

/-- The lowering is the last event of a transaction (R163). -/
theorem pinIndex_lowering (reads : Bool) (y : Byte × Byte) :
    pinIndex (transactionTrace reads y) (50 + reads.toNat) = 82 + reads.toNat := by
  obtain ⟨es, split, count, -⟩ := transactionTrace_split reads y
  have length := transactionTrace_length reads y
  rw [split, List.length_append, List.length_singleton] at length
  rw [split, ← count, pinIndex_append rfl]
  omega

/-- Where only the lowering fails, the failure has the index of the last event (R163). -/
theorem transaction_unlowered (x : Byte × Byte) (pins : s.pins = okPins (50 + reads.toNat) (.fail c took :: ps)) :
    ∃ y v, Carries reads x y ∧ (transaction reads x).run s = (v, some ⟨c, s.evIdx + (82 + reads.toNat)⟩) ∧
      Aborted (transactionTrace reads y) (50 + reads.toNat) took ps s v := by
  obtain ⟨y, es, u, carries, clean, split⟩ := transaction_clean (reads := reads) x s
  rw [← pinSteps_transaction x] at pins
  obtain ⟨v, run, aborted⟩ := Frame.run_unlowered (transaction_closes x) clean pins
  rw [← split, pinSteps_transaction] at run aborted
  rw [pinIndex_lowering] at run
  exact ⟨y, v, carries, run, aborted⟩

/-- After a lowering that succeeded RST is 0 (R165). -/
theorem Closed.rst {es : List Event} {x : State} (h : Closed es n took a ps s x) (ok : a = .ok) : x.rst = false := by
  obtain ⟨-, -, -, -, rst⟩ := h.lowered ok
  rw [rst, play_append]
  rfl

/-- A lowering that failed leaves RST old or requested (R127, R163). -/
theorem Aborted.rst_lowering {y : Byte × Byte} {x : State}
    (h : Aborted (transactionTrace reads y) (50 + reads.toNat) took ps s x) : x.rst = if took then false else true := by
  obtain ⟨-, -, -, rst⟩ := h.lines
  obtain ⟨es, split, count, raised⟩ := transactionTrace_split reads y
  rw [rst, split, ← count, effectAt_append rfl, play_append]
  cases took with
  | true => rfl
  | false => exact raised s

end Fails

/-! A sequence that fails at one of its transactions (R222, R224, R246). -/

theorem runFrames_append (fs gs : List Frame) (got : List Byte) (s : State) :
    runFrames (fs ++ gs) got s = match runFrames fs got s with
      | (u, .ok got') => runFrames gs got' u
      | (u, .error e) => (u, .error e) := by
  induction fs generalizing got s with
  | nil => rfl
  | cons f fs ih =>
    simp only [List.cons_append, runFrames]
    rcases f.run s with ⟨u, _ | e⟩
    · exact ih _ _
    · rfl

/-- The operation is the transactions `xs` one after another, with no guard left to stop it. -/
structure Sequences (cfg : Config) (i : Instr) (reads : Bool) (xs : List (Byte × Byte)) : Prop where
  wellFormed : i.wellFormed = true
  guard : (planOf cfg i).guard = .always
  frames : (planOf cfg i).frames = xs.map (transaction reads)
  kind : (planOf cfg i).kind = .protocolAborted

theorem Transacts.sequences {cfg : Config} {i : Instr} {reads : Bool} {x : Byte × Byte}
    (h : Transacts cfg i (transaction reads x)) : Sequences cfg i reads [x] :=
  ⟨h.wellFormed, h.guard, h.frames, h.kind⟩

theorem sequences_rsttimer (c : Config) : Sequences c .rsttimer false (timerWrites c) := ⟨rfl, rfl, rfl, rfl⟩

theorem sequences_rdtimer (c : Config) (g : TimeRegs) : Sequences c .rdtimer true (timerPairs c g) := ⟨rfl, rfl, rfl, rfl⟩

/-- Where the transactions before `x` happen as `ys` and `x` as `y`, some list happens so in whole. -/
theorem exists_carried {reads : Bool} {xs ys : List (Byte × Byte)} {x y : Byte × Byte} {j : Nat} (at_j : xs[j]? = some x)
    (before : List.Forall₂ (Carries reads) (xs.take j) ys) (here : Carries reads x y) :
    ∃ zs, List.Forall₂ (Carries reads) xs zs ∧ zs.take j = ys ∧ zs[j]? = some y := by
  obtain ⟨bound, rfl⟩ := List.getElem?_eq_some_iff.1 at_j
  have length : ys.length = j := by rw [← before.length_eq, List.length_take, Nat.min_eq_left bound.le]
  refine ⟨ys ++ y :: xs.drop (j + 1), ?_, by simp [← length], by simp [← length]⟩
  have behind : List.Forall₂ (Carries reads) (xs.drop (j + 1)) (xs.drop (j + 1)) := List.forall₂_same.2 fun _ _ => .refl _ _
  have whole : List.Forall₂ (Carries reads) (xs.take j ++ xs[j] :: xs.drop (j + 1)) (ys ++ y :: xs.drop (j + 1)) :=
    List.rel_append before (.cons here behind)
  rwa [← List.drop_eq_getElem_cons, List.take_append_drop] at whole

section Sequence
variable {i : Instr} {reads : Bool} {xs : List (Byte × Byte)} {x : Byte × Byte} {j n : Nat} {c : Cause} {took : Bool}
  {a : PinAnswer} {s : State} {ps : List PinAnswer}

/-- A sequence reaches its transaction number `j` when the pin actions before it succeed, and ends there if that one fails. -/
theorem Sequences.reaches (h : Sequences s.cfg i reads xs) (notBusy : s.status.busy = false) (at_j : xs[j]? = some x)
    (pins : s.pins = okPins ((51 + reads.toNat) * j) ps) :
    ∃ ys u, List.Forall₂ (Carries reads) (xs.take j) ys ∧ u.pins = ps ∧ u.evIdx = (83 + reads.toNat) * j ∧
      u.trace = s.trace ++ ys.flatMap (transactionTrace reads) ∧
      ∀ v e, (transaction reads x).run u = (v, some e) → exec i s = .next (completeErr (planOf s.cfg i) e v) := by
  obtain ⟨bound, rfl⟩ := List.getElem?_eq_some_iff.1 at_j
  have length : (xs.take j).length = j := by rw [List.length_take, Nat.min_eq_left bound.le]
  obtain ⟨ys, lv, dr, carries, run⟩ := runFrames_transactions (s := issueOp (commandWord s.cfg.tab i) s) (r := ps) (xs.take j) []
    (by rw [length]; exact pins)
  refine ⟨ys, transacted reads ys ps lv dr (issueOp (commandWord s.cfg.tab i) s), carries, rfl, ?_, rfl, fun v e fails => ?_⟩
  · rw [transacted_evIdx, ← carries.length_eq, length, issueOp_evIdx, Nat.zero_add]
  · have split : xs.map (transaction reads) = (xs.take j).map (transaction reads) ++
        transaction reads xs[j] :: (xs.drop (j + 1)).map (transaction reads) := by
      rw [← List.map_cons, ← List.drop_eq_getElem_cons, ← List.map_append, List.take_append_drop]
    rw [exec_eq_perform h.wellFormed]
    refine perform_next.2 ⟨stop_of_always h.guard notBusy, ?_⟩
    simp only [h.frames, split, runFrames_append, run, runFrames, fails, complete]

/-- A sequence whose transaction number `j` fails at its pin action number `n` before its lowering. -/
theorem Sequences.closed (h : Sequences s.cfg i reads xs) (notBusy : s.status.busy = false) (at_j : xs[j]? = some x)
    (hn : n < 50 + reads.toNat) (pins : s.pins = okPins ((51 + reads.toNat) * j + n) (.fail c took :: a :: ps)) :
    ∃ t zs y, exec i s = .next t ∧ List.Forall₂ (Carries reads) xs zs ∧ zs[j]? = some y ∧
      t.status = Status.failed .protocolAborted ⟨c, (83 + reads.toNat) * j + pinIndex (transactionTrace reads y) n⟩ ∧
      (a = .ok → t.rst = false ∧ t.trace = s.trace ++ (zs.take j).flatMap (transactionTrace reads) ++
        cutAt (transactionTrace reads y) n ++ [.rst false]) ∧
      (a ≠ .ok → t.trace = s.trace ++ (zs.take j).flatMap (transactionTrace reads) ++
        cutAt (transactionTrace reads y) n ++ [.failed (.drive (.rst false))]) ∧
      t.pins = ps := by
  rw [okPins_add] at pins
  obtain ⟨ys, u, before, left, counted, trace, ends⟩ := h.reaches notBusy at_j pins
  obtain ⟨y, v, here, run, closed⟩ := transaction_closed (reads := reads) x hn left
  obtain ⟨zs, carries, rfl, at_y⟩ := exists_carried at_j before here
  refine ⟨_, zs, y, ends v _ run, carries, at_y, ?_, fun ok => ⟨?_, ?_⟩, fun fails => ?_, ?_⟩
  · rw [completeErr_status, h.kind, counted]
  · rw [completeErr_rst, closed.rst ok]
  · rw [completeErr_trace, (closed.lowered ok).1, trace]
  · rw [completeErr_trace, closed.stuck fails, trace]
  · rw [completeErr_pins, closed.pins]

/-- A sequence of whose transaction number `j` only the lowering fails. -/
theorem Sequences.unlowered (h : Sequences s.cfg i reads xs) (notBusy : s.status.busy = false) (at_j : xs[j]? = some x)
    (pins : s.pins = okPins ((51 + reads.toNat) * j + (50 + reads.toNat)) (.fail c took :: ps)) :
    ∃ t zs y, exec i s = .next t ∧ List.Forall₂ (Carries reads) xs zs ∧ zs[j]? = some y ∧
      t.status = Status.failed .protocolAborted ⟨c, (83 + reads.toNat) * j + (82 + reads.toNat)⟩ ∧
      t.rst = (if took then false else true) ∧
      t.trace = s.trace ++ (zs.take j).flatMap (transactionTrace reads) ++
        cutAt (transactionTrace reads y) (50 + reads.toNat) ∧
      t.pins = ps := by
  rw [okPins_add] at pins
  obtain ⟨ys, u, before, left, counted, trace, ends⟩ := h.reaches notBusy at_j pins
  obtain ⟨y, v, here, run, aborted⟩ := transaction_unlowered (reads := reads) x left
  obtain ⟨zs, carries, rfl, at_y⟩ := exists_carried at_j before here
  refine ⟨_, zs, y, ends v _ run, carries, at_y, ?_, ?_, ?_, ?_⟩
  · rw [completeErr_status, h.kind, counted]
  · rw [completeErr_rst, aborted.rst_lowering]
  · rw [completeErr_trace, aborted.trace, trace]
  · rw [completeErr_pins, aborted.pins]

end Sequence

/-- Settles O32: a transaction on its own is a sequence of one. -/
theorem loweringFails : Obligations.LoweringFails := by
  intro i cmd dat c took s rest notBusy
  refine ⟨fun writes pins => ?_, fun reads pins => ?_⟩
  · obtain ⟨t, zs, y, next, carries, at_y, status, rst, trace, -⟩ :=
      (Transacts.sequences (reads := false) (x := (cmd, dat)) writes.transacts).unlowered (j := 0) notBusy rfl pins
    obtain rfl := forall₂_carries_false carries
    cases at_y
    exact ⟨t, next, status, by simpa [transactionTrace] using trace, rst⟩
  · obtain ⟨t, zs, y, next, carries, at_y, status, rst, trace, -⟩ :=
      (Transacts.sequences (reads := true) (x := (cmd, 0)) reads.transacts).unlowered (j := 0) notBusy rfl pins
    obtain ⟨z, others, ⟨sent, -⟩, -, rfl⟩ := List.forall₂_cons_left_iff.1 carries
    cases at_y
    obtain rfl : y.1 = cmd := sent
    exact ⟨t, y.2, next, status, by simpa [transactionTrace] using trace, rst⟩

/-- Settles O34: the step counts 83 events per whole write transaction. -/
theorem resetTimerFails : Obligations.ResetTimerFails := by
  intro i w c took s rest notBusy at_i
  have sequence := sequences_rsttimer s.cfg
  refine ⟨fun n a hn pins => ?_, fun pins => ?_⟩
  · obtain ⟨t, zs, y, next, carries, at_y, status, ok, fails, left⟩ := sequence.closed notBusy at_i hn pins
    obtain rfl := forall₂_carries_false carries
    obtain rfl : w = y := Option.some.inj (at_i.symm.trans at_y)
    obtain ⟨-, res, rfld, treg, -⟩ := Exec.writeFrame .rsttimer s t (by simp) next
    exact ⟨t, next, status, ok, fails, left, res, rfld, treg⟩
  · obtain ⟨t, zs, y, next, carries, at_y, status, rst, trace, left⟩ := sequence.unlowered notBusy at_i pins
    obtain rfl := forall₂_carries_false carries
    obtain rfl : w = y := Option.some.inj (at_i.symm.trans at_y)
    obtain ⟨-, res, rfld, treg, -⟩ := Exec.writeFrame .rsttimer s t (by simp) next
    exact ⟨t, next, status, rst, trace, left, res, rfld, treg⟩

/-- Settles O35: the step counts 84 events per whole read transaction. -/
theorem readTimerFails : Obligations.ReadTimerFails := by
  intro i c took s rest notBusy hi
  have sequence := sequences_rdtimer s.cfg tregZero
  have at_i := List.getElem?_eq_getElem (l := timerPairs s.cfg tregZero) hi
  refine ⟨fun n a hn pins => ?_, fun pins => ?_⟩
  · obtain ⟨t, zs, y, next, carries, at_y, status, ok, fails, left⟩ := sequence.closed notBusy at_i hn pins
    obtain ⟨g, rfl⟩ := exists_timerPairs carries
    obtain ⟨res, -, rfld, -⟩ := (Exec.readFrame .rdtimer s t next).2.2 rfl
    exact ⟨t, g, y, next, at_y, status, ok, fails, left, res, rfld⟩
  · obtain ⟨t, zs, y, next, carries, at_y, status, rst, trace, left⟩ := sequence.unlowered notBusy at_i pins
    obtain ⟨g, rfl⟩ := exists_timerPairs carries
    obtain ⟨res, -, rfld, -⟩ := (Exec.readFrame .rdtimer s t next).2.2 rfl
    exact ⟨t, g, y, next, at_y, status, rst, trace, left, res, rfld⟩

end Sys2Proof.Machine

/-! PROOFS. The family of spec/43_codec.md: the operand domain and what lies outside it (R196), the round trip (R195), the codec
operations (R175, R179 to R194) and the host's arithmetic (R176, R177, R197). -/

namespace Sys2Proof.Machine

section Domain
variable {f1 f0 : Bool} {tens ones : BitVec 4}

/-! The operand domain, row by row (R196). -/

theorem inDomain_sec : inDomain .sec f1 f0 tens ones = true ↔ tens.toNat ≤ 7 ∧ f0 = false := by
  simp [inDomain, BitVec.le_def, and_comm]

theorem inDomain_min : inDomain .min f1 f0 tens ones = true ↔ tens.toNat ≤ 7 ∧ f1 = false ∧ f0 = false := by
  simp [inDomain, BitVec.le_def, and_comm]

theorem inDomain_hour : inDomain .hour f1 f0 tens ones = true ↔
    (f1 = false ∧ tens.toNat ≤ 3 ∧ f0 = false) ∨ (f1 = true ∧ tens.toNat ≤ 1) := by
  cases f1 <;> simp [inDomain, BitVec.le_def, and_comm]

theorem inDomain_date : inDomain .date f1 f0 tens ones = true ↔ tens.toNat ≤ 3 ∧ f1 = false ∧ f0 = false := by
  simp [inDomain, BitVec.le_def, and_comm]

theorem inDomain_month : inDomain .month f1 f0 tens ones = true ↔ tens.toNat ≤ 1 ∧ f1 = false ∧ f0 = false := by
  simp [inDomain, BitVec.le_def, and_comm]

theorem inDomain_year : inDomain .year f1 f0 tens ones = true ↔ f1 = false ∧ f0 = false := by
  simp [inDomain]

theorem inDomain_day : inDomain .day f1 f0 tens ones = true ↔ tens.toNat = 0 ∧ f1 = false ∧ f0 = false := by
  simp [inDomain, BitVec.toNat_eq, and_comm]

theorem inDomain_wp : inDomain .wp f1 f0 tens ones = true ↔ tens.toNat = 0 ∧ ones.toNat = 0 ∧ f0 = false := by
  simp [inDomain, BitVec.toNat_eq, ← and_assoc, and_comm]

/-! The round trip (R195). -/

/-- A number that fits the low bits is those bits with zeros in front. -/
theorem zeros_append_low {v w : Nat} {x : BitVec (v + w)} (h : x.toNat < 2 ^ w) : 0#v ++ x.extractLsb' 0 w = x := by
  apply BitVec.eq_of_toNat_eq
  simp [BitVec.toNat_append, Nat.mod_eq_of_lt h]

/-- Decoding cuts every field back out of the byte; inside the domain the tens digit fits its field, and what has no field
is 0. -/
theorem decodeFields_encodeFields {k : Kind} (h : inDomain k f1 f0 tens ones = true) :
    decodeFields k (encodeFields k f1 f0 tens ones) = ⟨f1, f0, tens, ones⟩ := by
  have fits1 (h : tens.toNat ≤ 1) : 0#3 ++ tens.extractLsb' 0 1 = tens := zeros_append_low (v := 3) (by omega)
  have fits2 (h : tens.toNat ≤ 3) : 0#2 ++ tens.extractLsb' 0 2 = tens := zeros_append_low (v := 2) (by omega)
  have fits3 (h : tens.toNat ≤ 7) : 0#1 ++ tens.extractLsb' 0 3 = tens := zeros_append_low (v := 1) (by omega)
  cases k
  case' sec => obtain ⟨small, rfl⟩ := inDomain_sec.1 h
  case' min => obtain ⟨small, rfl, rfl⟩ := inDomain_min.1 h
  case' hour => obtain ⟨rfl, small, rfl⟩ | ⟨rfl, small⟩ := inDomain_hour.1 h
  case' date => obtain ⟨small, rfl, rfl⟩ := inDomain_date.1 h
  case' month => obtain ⟨small, rfl, rfl⟩ := inDomain_month.1 h
  case' year => obtain ⟨rfl, rfl⟩ := inDomain_year.1 h
  case' day => obtain ⟨noTens, rfl, rfl⟩ := inDomain_day.1 h
  case' wp => obtain ⟨noTens, noOnes, rfl⟩ := inDomain_wp.1 h
  all_goals
    simp (disch := omega) only [decodeFields, encodeFields, BitVec.extractLsb'_append_eq_of_add_le,
      BitVec.extractLsb'_append_eq_of_le, BitVec.getLsbD_append, fits1, fits2, fits3, if_true, Bool.false_eq_true,
      if_false]
    simp [BitVec.toNat_eq, *]

end Domain

/-- Encoding the fields of a byte clears its reserved bits and keeps every other (R98). -/
theorem encodeFields_decodeFields (k : Kind) (b : Byte) :
    encodeFields k (decodeFields k b).f1 (decodeFields k b).f0 (decodeFields k b).tens (decodeFields k b).ones =
      b &&& ~~~reservedMask k := by
  cases k <;> revert b <;> decide

theorem and_not_eq_self_iff {w : Nat} (b m : BitVec w) : b &&& ~~~m = b ↔ b &&& m = 0 := by
  simp only [BitVec.eq_of_getLsbD_eq_iff, BitVec.getLsbD_and, BitVec.getLsbD_not]
  refine forall₂_congr fun i hi => ?_
  cases b.getLsbD i <;> simp [hi]

/-- Settles O52: encoding what was decoded clears the reserved bits, so it gives the byte back when they are 0 already. -/
theorem codecRoundTrip : Obligations.CodecRoundTrip := by
  refine ⟨fun _ _ _ _ _ domain => decodeFields_encodeFields domain, fun k b => ?_⟩
  rw [encodeFields_decodeFields]
  exact and_not_eq_self_iff b (reservedMask k)

/-! The codec operations and their plans. -/

section Plans
variable (k : Kind) (f1 f0 : Bool) (tens ones : BitVec 4) (b : Byte)

theorem exec_encOf (s : State) :
    exec (encOf k f1 f0 tens ones) s = perform (encOf k f1 f0 tens ones) (planEnc k f1 f0 tens ones) s := by
  cases k <;> rfl

@[simp] theorem planOf_encOf (cfg : Config) : planOf cfg (encOf k f1 f0 tens ones) = planEnc k f1 f0 tens ones := by
  cases k <;> rfl

@[simp] theorem planOf_decOf (cfg : Config) : planOf cfg (decOf k b) = planDec k b := by
  cases k <;> rfl

theorem commandWord_encOf (tab : CmdTab) : commandWord tab (encOf k f1 f0 tens ones) =
    0x6#4 ++ 0#1 ++ k.code ++ 0#6 ++ BitVec.ofBool f1 ++ BitVec.ofBool f0 ++ 0#4 ++ tens ++ 0#4 ++ ones := by
  simp only [commandWord, encodeParts_encOf, partsK, Parts.toWord, subOfKind, aOfFlags, byteOfDigit,
    BitVec.append_assoc, BitVec.cast_eq, BitVec.ofNat_eq_ofNat]

end Plans

/-- Settles O20: ENC.k has no frame, and its result is the packed byte. -/
theorem encodeCompletes : Obligations.EncodeCompletes := by
  intro k f1 f0 tens ones s notBusy domain
  rw [exec_encOf, ← commandWord_encOf k f1 f0 tens ones s.cfg.tab, ← encodeFields_eq_packed domain]
  exact perform_next.2 ⟨stop_of_always (domainGuard_of_inDomain domain) notBusy, rfl⟩

/-! Operands outside the domain (R85, R196). -/

theorem perform_of_stop {i : Instr} {p : Plan} {s : State} {r : Refusal} (h : p.stop s = some r) :
    perform i p s = .refused r := by
  simp [perform, h]

/-- A plan whose guard is the domain is stopped outside it. -/
theorem stop_outsideDomain {p : Plan} {s : State} {k : Kind} {f1 f0 : Bool} {tens ones : BitVec 4}
    (guard : p.guard = domainGuard k f1 f0 tens ones) (notBusy : s.status.busy = false)
    (outside : inDomain k f1 f0 tens ones = false) : p.stop s = some .outsideDomain := by
  simp [Plan.stop, guard, domainGuard, notBusy, outside]

/-- Settles O27: the domain is the guard of both plans, which `exec` and `issue` ask alike. -/
theorem outsideDomainRefused : Obligations.OutsideDomainRefused := by
  refine ⟨fun k f1 f0 tens ones s notBusy outside => ?_, fun _ _ _ _ => ⟨inDomain_sec, inDomain_min, inDomain_hour,
    inDomain_date, inDomain_month, inDomain_year, inDomain_day, inDomain_wp⟩⟩
  have enc : (planEnc k f1 f0 tens ones).stop s = some .outsideDomain := stop_outsideDomain rfl notBusy outside
  have wrreg : (planWrreg s.cfg k f1 f0 tens ones).stop s = some .outsideDomain :=
    stop_outsideDomain rfl notBusy outside
  exact ⟨(exec_encOf k f1 f0 tens ones s).trans (perform_of_stop enc), perform_of_stop wrreg,
    issue_of_stop (by rwa [planOf_encOf]), issue_of_stop wrreg⟩

/-! What a codec operation leaves alone (R175). -/

/-- Without a frame an operation makes no event and asks the environment for nothing. -/
theorem environment_of_no_frames {i : Instr} {s t : State} (frames : (planOf s.cfg i).frames = [])
    (h : exec i s = .next t) :
    t.trace = s.trace ∧ t.pins = s.pins ∧ t.levels = s.levels ∧ t.draws = s.draws ∧ t.peer = s.peer := by
  obtain ⟨-, rfl⟩ := exec_next h
  simp [framesRun, frames, runFrames, complete]

/-- Settles O42: neither plan has a frame, and its result writes RES alone or RFLD alone. -/
theorem codecFrame : Obligations.CodecFrame := by
  intro k f1 f0 tens ones b s t
  refine ⟨fun h => exec_same h .rfld (by rw [planOf_encOf]; rfl), fun h => exec_same h .res (by rw [planOf_decOf]; rfl),
    fun h => ?_⟩
  have same (q : Reg) (enc : (planEnc k f1 f0 tens ones).writes q = false) (dec : (planDec k b).writes q = false) :
      q.Same s t := by
    rcases h with h | h
    · exact exec_same h q (by rwa [planOf_encOf])
    · exact exec_same h q (by rwa [planOf_decOf])
  have environment : t.trace = s.trace ∧ t.pins = s.pins ∧ t.levels = s.levels ∧ t.draws = s.draws ∧ t.peer = s.peer := by
    rcases h with h | h
    · exact environment_of_no_frames (by simp [planEnc]) h
    · exact environment_of_no_frames (by simp [planDec]) h
  obtain ⟨trace, pins, levels, draws, peer⟩ := environment
  obtain ⟨treg, tregSet⟩ := same .treg rfl rfl
  obtain ⟨position, phase⟩ := same .position rfl rfl
  exact ⟨⟨same .clk rfl rfl, same .dataOut rfl rfl, same .dataOe rfl rfl, same .rst rfl rfl⟩, same .txd rfl rfl,
    same .rxd rfl rfl, treg, tregSet, position, phase, same .dly rfl rfl, trace, pins, levels, draws, peer,
    same .memory rfl rfl⟩

/-! The host's arithmetic (R176, R177, R197). -/

theorem digits_of_le {v : Nat} (h : v ≤ 99) : digits v = some (v / 10, v % 10) := if_pos h

theorem value_of_le {tens ones : Nat} (h : ones ≤ 9) : value tens ones = some (10 * tens + ones) := if_pos h

theorem yearFull_of_le {tens ones : Nat} (h : ones ≤ 9) : yearFull tens ones = some (1970 + (10 * tens + ones)) := by
  simp [yearFull, value_of_le h, epoch]

/-- VALUE takes the digits that DIGITS gives back together. -/
theorem value_digits {v : Nat} (h : v ≤ 99) : (digits v).bind (fun d => value d.1 d.2) = some v := by
  rw [digits_of_le h, Option.bind_some, value_of_le (by omega), Nat.div_add_mod]

/-- Settles O53: each function on either side of its bound, and the bounds on its digits. -/
theorem hostArithmetic : Obligations.HostArithmetic := by
  refine ⟨fun v h => ⟨digits_of_le h, by omega, by omega⟩, fun v h => if_neg (by omega), fun _ _ => value_of_le,
    fun _ _ h => if_neg (by omega), fun tens ones ht ho => ?_, fun _ => value_digits, fun _ _ => yearFull_of_le⟩
  exact ⟨by omega, _, yearFull_of_le ho, by omega, by omega⟩

end Sys2Proof.Machine

/-! PROOFS. The family of spec/45_timer_sequences.md: RSTTIMER then RDTIMER against PEER-ECHO, and the line of the document (R220,
R223, R225, R226). -/

namespace Sys2Proof.Machine

/-! Writes that PEER-ECHO stores (R65, R220). -/

/-- The memory after the stores `xs`, the first in the list done first. -/
def Memory.storeAll (m : Memory) (xs : List (Slot × Byte)) : Memory := xs.foldl (fun m x => m.write x.1.addr x.2) m

/-- The write transaction `w` stores its data byte in the slot of `x`. -/
def Stores (cfg : Config) (w : Byte × Byte) (x : Slot × Byte) : Prop := lookup cfg w.1 = .wr x.1 ∧ w.2 = x.2

/-- Write transactions one after another store their bytes in order. -/
theorem hear_writesTrace_mem {cfg : Config} {ws : List (Byte × Byte)} {xs : List (Slot × Byte)}
    (h : List.Forall₂ (Stores cfg) ws xs) (d : Bool) (p : Peer) :
    (p.hear cfg d (writesTrace ws)).mem = p.mem.storeAll xs := by
  induction h generalizing d p with
  | nil => rfl
  | @cons w x ws xs stores _ ih =>
    obtain ⟨sel, data⟩ := stores
    have traces : writesTrace (w :: ws) = writeTrace w.1 w.2 ++ writesTrace ws := rfl
    rw [traces, hear_append, ih, hear_writeTrace_mem sel, data]
    rfl

/-- What the eleven transactions of RSTTIMER store, in order (R220, R221). -/
def timerStores (c : Config) : List (Slot × Byte) :=
  [(.reg .wp, 0x00), (.reg .sec, 0x00), (.reg .min, 0x00), (.reg .hour, 0x00), (.reg .date, 0x31), (.reg .month, 0x01),
   (.reg .year, 0x26), (.reg .day, 0x03), (.charge, c.datCharge), (.trickle, c.datTrickle), (.reg .wp, 0x80)]

theorem timerWrites_stores {c : Config} (distinct : c.Distinct) :
    List.Forall₂ (Stores c) (timerWrites c) (timerStores c) := by
  have charge : lookup c c.ctlCharge = .wr .charge := lookup_of_mem distinct (by simp [codeSels])
  have trickle : lookup c c.ctlTrickle = .wr .trickle := lookup_of_mem distinct (by simp [codeSels])
  have kind := lookup_wr distinct
  simp only [timerWrites, timerStores, List.forall₂_cons, List.forall₂_nil_left_iff, Stores, and_true]
  exact ⟨kind .wp, kind .sec, kind .min, kind .hour, kind .date, kind .month, kind .year, kind .day, charge, trickle, kind .wp⟩

/-! Reads that PEER-ECHO answers (R65, R223). -/

/-- PEER-ECHO answers the read command `x.1` with the byte `x.2`. -/
def Answers (s : State) (x : Byte × Byte) : Prop := ∃ sl, lookup s.cfg x.1 = .rd sl ∧ peerByte s sl.addr = some x.2

/-- A read transaction in which every pin action succeeds receives the byte that PEER-ECHO answers. -/
theorem transaction_answered {s : State} {r : List PinAnswer} {x : Byte × Byte} (pins : s.pins = okPins 52 r)
    (answer : Answers s x) : (transaction true x).run s = (transacted true [x] r s.levels s.draws s, none) := by
  obtain ⟨sl, sel, byte⟩ := answer
  obtain ⟨p, peer, value⟩ := Option.bind_eq_some_iff.1 byte
  refine (readFrame_peer pins peer sel value).trans ?_
  rw [transacted_singleton, peer]
  rfl

/-- A read leaves the memory as it is, so the answers stay. -/
theorem Answers.after_read {s u : State} {x y : Byte × Byte} (answer : Answers s x) (other : Answers s y)
    (run : (transaction true x).run s = (u, none)) : Answers u y := by
  obtain ⟨sl, sel, -⟩ := answer
  obtain ⟨sm, other, byte⟩ := other
  have free : Unselected s.cfg sm.addr x.1 := fun _ h => nomatch sel.symm.trans h
  have cfg : u.cfg = s.cfg := by simpa [run] using (Keeps.frame (transaction true x) s).cfg
  have sends : (transaction true x).Sends x.1 := readFrame_sends x.1
  have same : peerByte u sm.addr = peerByte s sm.addr := by simpa [run] using sends.run_peerByte free
  exact ⟨sm, cfg ▸ other, same.trans byte⟩

/-- Read transactions one after another receive the bytes that PEER-ECHO answers, in order. -/
theorem runFrames_answered {s : State} {r : List PinAnswer} {xs : List (Byte × Byte)} (got : List Byte)
    (pins : s.pins = okPins (52 * xs.length) r) (answers : ∀ x ∈ xs, Answers s x) :
    ∃ u, runFrames (xs.map (transaction true)) got s = (u, .ok (got ++ xs.map Prod.snd)) := by
  induction xs generalizing got s with
  | nil => exact ⟨s, by simp [runFrames]⟩
  | cons x xs ih =>
    have first : s.pins = okPins 52 (okPins (52 * xs.length) r) := by
      rw [pins, ← okPins_add, List.length_cons, Nat.mul_succ, Nat.add_comm]
    have answer := answers x (.head _)
    have run := transaction_answered first answer
    obtain ⟨u, rest⟩ := ih (got ++ [x.2]) (s := transacted true [x] (okPins (52 * xs.length) r) s.levels s.draws s) rfl
      fun y mem => answer.after_read (answers y (.tail _ mem)) run
    refine ⟨u, ?_⟩
    simp only [List.map_cons, runFrames, run]
    rw [List.append_cons]
    exact rest

/-! The two sequences against PEER-ECHO (R226). -/

/-- The bytes that RSTTIMER leaves in the seven time slots (R226). -/
def resetRegs : TimeRegs := ⟨0x00, 0x00, 0x00, 0x31, 0x01, 0x26, 0x03⟩

/-- After RSTTIMER every time slot holds its reset byte: none of the later transactions stores there again. -/
theorem exec_rsttimer_answers {s : State} {p : Peer} {rest : List PinAnswer} (distinct : s.cfg.Distinct)
    (notBusy : s.status.busy = false) (peer : s.peer = some p) (pins : s.pins = okPins 561 rest) :
    ∃ t, exec .rsttimer s = .next t ∧ t.status.busy = false ∧ t.pins = rest ∧
      ∀ x ∈ timerPairs t.cfg resetRegs, Answers t x := by
  refine ⟨_, resetTimerCompletes s rest notBusy pins, rfl, rfl, ?_⟩
  have kind := lookup_rd distinct
  have stored := hear_writesTrace_mem (timerWrites_stores distinct) s.dataOut p
  simp only [timerPairs, List.forall_mem_cons, Answers, peerByte, peer, Option.map_some, Option.bind_some, stored]
  refine ⟨⟨_, kind .sec, ?_⟩, ⟨_, kind .min, ?_⟩, ⟨_, kind .hour, ?_⟩, ⟨_, kind .date, ?_⟩, ⟨_, kind .month, ?_⟩,
    ⟨_, kind .year, ?_⟩, ⟨_, kind .day, ?_⟩, nofun⟩
  all_goals simp [Memory.storeAll, timerStores, Slot.addr, Kind.code, Memory.read_write_same, Memory.read_write_other,
    resetRegs]

/-- RDTIMER puts the bytes that PEER-ECHO answers into TREG (R223). -/
theorem exec_rdtimer_answered {s : State} {g : TimeRegs} {rest : List PinAnswer} (notBusy : s.status.busy = false)
    (pins : s.pins = okPins 364 rest) (answers : ∀ x ∈ timerPairs s.cfg g, Answers s x) :
    ∃ u, exec .rdtimer s = .next u ∧ u.status = Status.completed ∧ u.treg = g := by
  obtain ⟨u, run⟩ := runFrames_answered (s := issueOp (commandWord s.cfg.tab .rdtimer) s)
    (xs := timerPairs s.cfg g) [] pins answers
  rw [← planRdtimer_frames] at run
  exact ⟨_, perform_next.2 ⟨stop_of_always rfl notBusy, congrArg _ run.symm⟩, rfl, rfl⟩

/-- Settles O55: RSTTIMER stores the reset bytes, and RDTIMER reads the slots it stored them in. -/
theorem resetThenRead : Obligations.ResetThenRead := by
  intro p s rest distinct notBusy peer pins
  obtain ⟨t, reset, ready, left, answers⟩ :=
    exec_rsttimer_answers distinct notBusy peer (pins.trans (okPins_add 561 364 rest))
  obtain ⟨u, read, status, treg⟩ := exec_rdtimer_answered ready left answers
  refine ⟨t, u, reset, read, status, treg, ?_⟩
  rw [treg]
  decide

end Sys2Proof.Machine
